-- ==== Sys2Proof/Word.lean ====
section
/-! DEFINITION. The bit patterns of the Kolvec 412 that the manual treats as bits: the bytes of the port lines and the 16-bit
words (check word, CRC remainder, latch set). Every other quantity (levels, counts, times, indices) is a number. -/

namespace Sys2Proof

/-- One byte of a port line (00_scope, "Ports and masters"). -/
abbrev Byte := BitVec 8

/-- Sixteen bits: a CRC remainder (R141), a check word (R153), an event latch set (R149). -/
abbrev Word16 := BitVec 16

end Sys2Proof
end

