-- ==== Sys2Proof/Syntax.lean ====
section
/-! DEFINITION. The commands of the Kolvec 412: one constructor of `Instr` per row of spec/opcode_table.json. The table gives its rows no
operand fields, so the operands are those that the chapters give each step: what the field terminals read, the unit whose timer
expires, the byte on a line, and the port, tag and parameters of a request (section 9.2). -/

namespace Sys2Proof

/-- The three serial ports (00_scope, "Ports and masters"). -/
inductive Port where
  | a | b | c
deriving DecidableEq, Repr

/-- The index of a port: 0 for A, 1 for B, 2 for C (R142). -/
def Port.idx : Port → Fin 3
  | .a => 0
  | .b => 1
  | .c => 2

/-- The order in which the blocks take what a command gives rise to, where the manual leaves it open ("may be taken in either order"):
each number picks the next notice among those that may come next, and an exhausted list picks the oldest (log 6). -/
abbrev Picks := List Nat

/-- One command. A request carries the port it arrives on, its tag, and its parameter bytes as section 9.2 gives them. -/
inductive Instr where
  /-- POWER_ON (R158): what the first scan reads (bit k is input Kk, 1 for MADE). -/
  | powerOn (contacts : BitVec 52) (picks : Picks)
  /-- SAMPLING_INSTANT (R1): the loop current of each probe, in µA. -/
  | samplingInstant (currents : Vector Nat 8)
  /-- SCAN (R11): what each contact input reads (bit k is input Kk, 1 for MADE). -/
  | scan (readings : BitVec 52) (picks : Picks)
  /-- SHORTED (R15): a load current above the short threshold on one output. -/
  | shorted (output : Fin 44) (picks : Picks)
  /-- OPEN_LOAD (R15): 20 ms of load current below the open-load threshold on one output. -/
  | openLoad (output : Fin 44) (picks : Picks)
  /-- SWEEP (R18). -/
  | sweep (picks : Picks)
  /-- PROVING_TIMER_EXPIRY (R55). -/
  | provingTimerExpiry (pump : Fin 8) (picks : Picks)
  /-- MIN_RUN_TIMER_EXPIRY (R56). -/
  | minRunTimerExpiry (pump : Fin 8) (picks : Picks)
  /-- NO_FLOW_TIMER_EXPIRY (R57). -/
  | noFlowTimerExpiry (pump : Fin 8) (picks : Picks)
  /-- MIN_OFF_TIMER_EXPIRY (R58). -/
  | minOffTimerExpiry (pump : Fin 8) (picks : Picks)
  /-- HOUR_RELOAD (R64). -/
  | hourReload (picks : Picks)
  /-- INCREMENT_TIMER_EXPIRY (R86). -/
  | incrementTimerExpiry (barrier : Fin 6) (picks : Picks)
  /-- SEAL_TIMER_EXPIRY (R89). -/
  | sealTimerExpiry (barrier : Fin 6) (picks : Picks)
  /-- PULSE_END (R110). -/
  | pulseEnd (picks : Picks)
  /-- FEEDBACK_CHECK (R111). -/
  | feedbackCheck (picks : Picks)
  /-- RECHARGE_TIMER_EXPIRY (R110). -/
  | rechargeTimerExpiry (picks : Picks)
  /-- DEFERRAL_EXPIRY (R115). -/
  | deferralExpiry (feed : Fin 12) (picks : Picks)
  /-- PRE_ARM_EXPIRY (R115). -/
  | preArmExpiry (feed : Fin 12)
  /-- AGE_TIMER_EXPIRY (R135). -/
  | ageTimerExpiry (picks : Picks)
  /-- WRITE_END (R156): whether the read-back agrees, whether the image written will pass its check at the next load, and what the first
  scan reads should a held restart take effect now. -/
  | writeEnd (agrees : Bool) (sound : Bool) (contacts : BitVec 52) (picks : Picks)
  /-- BYTE_RECEIVED (R140): a byte on a port line, and whether its stop bit stood at space. -/
  | byteReceived (port : Port) (byte : Byte) (framingError : Bool)
  /-- GAP (R140): the line has been quiet for more than 5 ms. -/
  | gap (port : Port)
  /-- SKIPPING_QUIET (R140): the line has been quiet for more than 5 ms in SKIPPING. -/
  | skippingQuiet (port : Port)
  /-- REPLY_SENT (R140): the last byte of a reply has been sent; `contacts` is what the first scan reads should a restart take effect now. -/
  | replySent (port : Port) (contacts : BitVec 52) (picks : Picks)
  /-- BREAK (R142): the line has been at space for 100 ms. -/
  | lineBreak (port : Port) (picks : Picks)
  /-- BREAK_END (R142): the line leaves the space level. -/
  | breakEnd (port : Port)
  /-- PICTURE (R144). -/
  | picture (port : Port) (tag : Byte) (sump : Byte)
  /-- STATE (R144): the target's class and index bytes. -/
  | state (port : Port) (tag : Byte) (cls idx : Byte)
  /-- CONFIG_GET (R153): item code and unit index. -/
  | configGet (port : Port) (tag : Byte) (item unit : Byte)
  /-- FAULT (R151). -/
  | fault (port : Port) (tag : Byte)
  /-- PROBE_RAW (R9). -/
  | probeRaw (port : Port) (tag : Byte) (probe : Byte)
  /-- EVENTS (R149). -/
  | events (port : Port) (tag : Byte)
  /-- MASK (R149): the 24-bit map. -/
  | mask (port : Port) (tag : Byte) (map : BitVec 24)
  /-- FAULT_CLEAR (R152). -/
  | faultClear (port : Port) (tag : Byte)
  /-- PUMP_START (R127): an ORDER's target, class and seconds (R145), as for the eight kinds below. -/
  | pumpStart (port : Port) (tag : Byte) (cls idx urgency : Byte) (seconds : Word16) (picks : Picks)
  /-- PUMP_STOP (R128). -/
  | pumpStop (port : Port) (tag : Byte) (cls idx urgency : Byte) (seconds : Word16) (picks : Picks)
  /-- BARRIER_CLOSE (R129). -/
  | barrierClose (port : Port) (tag : Byte) (cls idx urgency : Byte) (seconds : Word16) (picks : Picks)
  /-- BARRIER_OPEN (R130). -/
  | barrierOpen (port : Port) (tag : Byte) (cls idx urgency : Byte) (seconds : Word16) (picks : Picks)
  /-- BARRIER_HOME (R131). -/
  | barrierHome (port : Port) (tag : Byte) (cls idx urgency : Byte) (seconds : Word16) (picks : Picks)
  /-- FEED_SHED (R132). -/
  | feedShed (port : Port) (tag : Byte) (cls idx urgency : Byte) (seconds : Word16) (picks : Picks)
  /-- FEED_RESTORE (R133). -/
  | feedRestore (port : Port) (tag : Byte) (cls idx urgency : Byte) (seconds : Word16) (picks : Picks)
  /-- FEED_DEFER (R114, R132). -/
  | feedDefer (port : Port) (tag : Byte) (cls idx urgency : Byte) (seconds : Word16) (picks : Picks)
  /-- SETTLE (R134). -/
  | settle (port : Port) (tag : Byte) (cls idx urgency : Byte) (seconds : Word16) (picks : Picks)
  /-- WITHDRAW (R136). -/
  | withdraw (port : Port) (tag : Byte) (cls idx : Byte)
  /-- ABORT (R137). -/
  | abort (port : Port) (tag : Byte) (cls idx : Byte) (picks : Picks)
  /-- COLLECT (R138). -/
  | collect (port : Port) (tag : Byte)
  /-- CONFIG_SET (R154): item code, unit index and signed 16-bit value. -/
  | configSet (port : Port) (tag : Byte) (item unit : Byte) (value : Word16) (picks : Picks)
  /-- LOCKOUT (R157). -/
  | lockout (port : Port) (tag : Byte) (cls idx : Byte) (picks : Picks)
  /-- UNLOCK (R157). -/
  | unlock (port : Port) (tag : Byte) (cls idx : Byte) (picks : Picks)
  /-- CLEAR_FAILURE (R146). -/
  | clearFailure (port : Port) (tag : Byte) (cls idx : Byte) (picks : Picks)
  /-- RESTART (R147). -/
  | restart (port : Port) (tag : Byte)
  /-- POWER_LOSS (R156). -/
  | powerLoss
deriving DecidableEq, Repr

end Sys2Proof
end

