-- ==== Sys2Proof/Decode.lean ====
section
/-! DEFINITION. Request bodies (sections 9.2 and 9.7): the command that the body of a checked frame spells, the body that spells a request, and
`decodeTableWord` over the rows that give bits. -/

namespace Sys2Proof

/-- The command a table word spells: spec/opcode_table.json gives its rows no bits, so no word spells one. -/
def decodeTableWord (_nbits _w : Nat) : Option Instr := none

/-- The ORDER of a kind code (R145). -/
def decodeOrder (kind : Nat) (p : Port) (tag cls idx urgency : Byte) (seconds : Word16) : Option Instr :=
  match kind with
  | 0 => some (.pumpStart p tag cls idx urgency seconds [])
  | 1 => some (.pumpStop p tag cls idx urgency seconds [])
  | 2 => some (.barrierClose p tag cls idx urgency seconds [])
  | 3 => some (.barrierOpen p tag cls idx urgency seconds [])
  | 4 => some (.barrierHome p tag cls idx urgency seconds [])
  | 5 => some (.feedShed p tag cls idx urgency seconds [])
  | 6 => some (.feedRestore p tag cls idx urgency seconds [])
  | 7 => some (.feedDefer p tag cls idx urgency seconds [])
  | 8 => some (.settle p tag cls idx urgency seconds [])
  | _ => none

/-- The request that a frame body spells on a port (R143 to R152, R157): none when the code names no request, the length is not the one that the
request's parameters need, or an order kind code names no kind. -/
def decodeRequest (p : Port) (body : List Byte) : Option Instr :=
  match body with
  | code :: tag :: params =>
    match code.toNat, params with
    | 0x01, [sump] => some (.picture p tag sump)
    | 0x02, [cls, idx] => some (.state p tag cls idx)
    | 0x03, [_] => some (.events p tag)
    | 0x04, [m2, m1, m0] => some (.mask p tag (m2 ++ m1 ++ m0))
    | 0x05, [_] => some (.fault p tag)
    | 0x06, [_] => some (.faultClear p tag)
    | 0x10, [kind, cls, idx, urgency, hi, lo] => decodeOrder kind.toNat p tag cls idx urgency (hi ++ lo)
    | 0x11, [cls, idx] => some (.withdraw p tag cls idx)
    | 0x12, [cls, idx] => some (.abort p tag cls idx [])
    | 0x13, [_] => some (.collect p tag)
    | 0x20, [item, unit] => some (.configGet p tag item unit)
    | 0x21, [item, unit, hi, lo] => some (.configSet p tag item unit (hi ++ lo) [])
    | 0x22, [cls, idx] => some (.lockout p tag cls idx [])
    | 0x23, [cls, idx] => some (.unlock p tag cls idx [])
    | 0x24, [cls, idx] => some (.clearFailure p tag cls idx [])
    | 0x25, [probe] => some (.probeRaw p tag probe)
    | 0x26, [_] => some (.restart p tag)
    | _, _ => none
  | _ => none

/-- The high byte of a two-byte field. -/
def highByte (w : Word16) : Byte := w.extractLsb' 8 8
/-- The low byte of a two-byte field. -/
def lowByte (w : Word16) : Byte := w.extractLsb' 0 8

/-- The body of an ORDER of a kind code. -/
def orderBody (kind : Byte) (tag cls idx urgency : Byte) (seconds : Word16) : List Byte :=
  [0x10, tag, kind, cls, idx, urgency, highByte seconds, lowByte seconds]

/-- The body that spells a request; a command that is no request has none. A request without a parameter carries one byte that is not read (R143). -/
def encodeRequest : Instr → Option (List Byte)
  | .picture _ tag sump => some [0x01, tag, sump]
  | .state _ tag cls idx => some [0x02, tag, cls, idx]
  | .events _ tag => some [0x03, tag, 0]
  | .mask _ tag map => some [0x04, tag, map.extractLsb' 16 8, map.extractLsb' 8 8, map.extractLsb' 0 8]
  | .fault _ tag => some [0x05, tag, 0]
  | .faultClear _ tag => some [0x06, tag, 0]
  | .pumpStart _ tag cls idx urgency seconds _ => some (orderBody 0 tag cls idx urgency seconds)
  | .pumpStop _ tag cls idx urgency seconds _ => some (orderBody 1 tag cls idx urgency seconds)
  | .barrierClose _ tag cls idx urgency seconds _ => some (orderBody 2 tag cls idx urgency seconds)
  | .barrierOpen _ tag cls idx urgency seconds _ => some (orderBody 3 tag cls idx urgency seconds)
  | .barrierHome _ tag cls idx urgency seconds _ => some (orderBody 4 tag cls idx urgency seconds)
  | .feedShed _ tag cls idx urgency seconds _ => some (orderBody 5 tag cls idx urgency seconds)
  | .feedRestore _ tag cls idx urgency seconds _ => some (orderBody 6 tag cls idx urgency seconds)
  | .feedDefer _ tag cls idx urgency seconds _ => some (orderBody 7 tag cls idx urgency seconds)
  | .settle _ tag cls idx urgency seconds _ => some (orderBody 8 tag cls idx urgency seconds)
  | .withdraw _ tag cls idx => some [0x11, tag, cls, idx]
  | .abort _ tag cls idx _ => some [0x12, tag, cls, idx]
  | .collect _ tag => some [0x13, tag, 0]
  | .configGet _ tag item unit => some [0x20, tag, item, unit]
  | .configSet _ tag item unit value _ => some [0x21, tag, item, unit, highByte value, lowByte value]
  | .lockout _ tag cls idx _ => some [0x22, tag, cls, idx]
  | .unlock _ tag cls idx _ => some [0x23, tag, cls, idx]
  | .clearFailure _ tag cls idx _ => some [0x24, tag, cls, idx]
  | .probeRaw _ tag probe => some [0x25, tag, probe]
  | .restart _ tag => some [0x26, tag, 0]
  | .powerOn .. | .samplingInstant .. | .scan .. | .shorted .. | .openLoad .. | .sweep .. | .provingTimerExpiry .. | .minRunTimerExpiry ..
  | .noFlowTimerExpiry .. | .minOffTimerExpiry .. | .hourReload .. | .incrementTimerExpiry .. | .sealTimerExpiry .. | .pulseEnd ..
  | .feedbackCheck .. | .rechargeTimerExpiry .. | .deferralExpiry .. | .preArmExpiry .. | .ageTimerExpiry .. | .writeEnd ..
  | .byteReceived .. | .gap .. | .skippingQuiet .. | .replySent .. | .lineBreak .. | .breakEnd .. | .powerLoss => none

/-- The port a request arrives on; port A for a command that is no request. -/
def requestPort : Instr → Port
  | .picture p .. | .state p .. | .events p .. | .mask p .. | .fault p .. | .faultClear p .. | .pumpStart p .. | .pumpStop p ..
  | .barrierClose p .. | .barrierOpen p .. | .barrierHome p .. | .feedShed p .. | .feedRestore p .. | .feedDefer p .. | .settle p ..
  | .withdraw p .. | .abort p .. | .collect p .. | .configGet p .. | .configSet p .. | .lockout p .. | .unlock p .. | .clearFailure p ..
  | .probeRaw p .. | .restart p .. => p
  | .powerOn .. | .samplingInstant .. | .scan .. | .shorted .. | .openLoad .. | .sweep .. | .provingTimerExpiry .. | .minRunTimerExpiry ..
  | .noFlowTimerExpiry .. | .minOffTimerExpiry .. | .hourReload .. | .incrementTimerExpiry .. | .sealTimerExpiry .. | .pulseEnd ..
  | .feedbackCheck .. | .rechargeTimerExpiry .. | .deferralExpiry .. | .preArmExpiry .. | .ageTimerExpiry .. | .writeEnd ..
  | .byteReceived .. | .gap .. | .skippingQuiet .. | .replySent .. | .lineBreak .. | .breakEnd .. | .powerLoss => .a

/-- A request without its order of picks, which a frame does not carry. -/
def withoutPicks : Instr → Instr
  | .pumpStart p tag cls idx urgency seconds _ => .pumpStart p tag cls idx urgency seconds []
  | .pumpStop p tag cls idx urgency seconds _ => .pumpStop p tag cls idx urgency seconds []
  | .barrierClose p tag cls idx urgency seconds _ => .barrierClose p tag cls idx urgency seconds []
  | .barrierOpen p tag cls idx urgency seconds _ => .barrierOpen p tag cls idx urgency seconds []
  | .barrierHome p tag cls idx urgency seconds _ => .barrierHome p tag cls idx urgency seconds []
  | .feedShed p tag cls idx urgency seconds _ => .feedShed p tag cls idx urgency seconds []
  | .feedRestore p tag cls idx urgency seconds _ => .feedRestore p tag cls idx urgency seconds []
  | .feedDefer p tag cls idx urgency seconds _ => .feedDefer p tag cls idx urgency seconds []
  | .settle p tag cls idx urgency seconds _ => .settle p tag cls idx urgency seconds []
  | .abort p tag cls idx _ => .abort p tag cls idx []
  | .configSet p tag item unit value _ => .configSet p tag item unit value []
  | .lockout p tag cls idx _ => .lockout p tag cls idx []
  | .unlock p tag cls idx _ => .unlock p tag cls idx []
  | .clearFailure p tag cls idx _ => .clearFailure p tag cls idx []
  | i => i

end Sys2Proof
end

