-- ==== Sys2Proof/Config.lean ====
section
/-! DEFINITION. The configuration items of the part (section 10.1) with their factory values, and the FREE VALUES of the model. Each is an opaque constant
without a body, so no proof can know its value and a claim that holds, holds for every value (assumption log 10 to 15). -/

namespace Sys2Proof.Machine

/-! ### Configuration items (section 10.1; defaults are the factory image) -/

/-- Loss policy of a sump (section 2.1). -/
inductive LossPolicy where
  | hold | assumeHigh
deriving DecidableEq, Repr

/-- Items 0x00 to 0x0B of a sump (sections 2.1 and 3.1). -/
structure SumpCfg where
  enable : Bool := false
  loss : LossPolicy := .hold
  band : Nat := 100
  area : Nat := 4
  brim : Nat := 1200
  floor : Nat := 600
  stop : Nat := 300
  lead : Nat := 600
  lag : Nat := 800
  alert : Nat := 1000
  hh : Nat := 1150
  weight : Nat := 1
deriving DecidableEq, Repr

/-- Items 0x10 to 0x12 of a probe (section 1.1). -/
structure ProbeCfg where
  enable : Bool := false
  span : Nat := 3000
  offset : Nat := 0
deriving DecidableEq, Repr

/-- Items 0x20 to 0x26 of a pump (section 4.1). -/
structure PumpCfg where
  enable : Bool := false
  sump : Fin 4 := 0
  flow : Nat := 20
  starts : Nat := 6
  proving : Nat := 10
  minRun : Nat := 60
  minOff : Nat := 30
deriving DecidableEq, Repr

/-- Items 0x30 to 0x37 of a barrier (section 6.1). -/
structure BarrierCfg where
  enable : Bool := false
  sump : Fin 4 := 0
  closedCount : Nat := 120
  interval : Nat := 250
  closeHeight : Nat := 1000
  reopenHeight : Nat := 800
  closeLead : Nat := 60
  sealTime : Nat := 5
deriving DecidableEq, Repr

/-- Items 0x40 to 0x49 of a feed (section 7.1); the default rank is the feed's index. -/
structure FeedCfg where
  enable : Bool := false
  sump : Fin 4 := 0
  chain : Fin 4 := 0
  rank : Nat
  trip : Nat := 1500
  lead : Nat := 900
  margin : Nat := 600
  deferrable : Bool := false
  maxDeferral : Nat := 600
  band : Nat := 200
deriving DecidableEq, Repr

/-- Quantity watched by a trip rule (R47). -/
inductive Quantity where
  | level | inflow | netRise
deriving DecidableEq, Repr

/-- Condition set of a trip rule (R47). -/
structure CondSet where
  below : Bool := false
  at_ : Bool := false
  above : Bool := true
deriving DecidableEq, Repr

/-- Action of a trip rule (R47, R50). -/
inductive RuleAction where
  | note | alert | startAll | closeAll
deriving DecidableEq, Repr

/-- Items 0x50 to 0x57 of a trip rule (R47). -/
structure RuleCfg where
  enable : Bool := false
  sump : Fin 4 := 0
  quantity : Quantity := .level
  threshold : Int := 0
  cond : CondSet := {}
  hold : Nat := 1
  release : Nat := 1
  action : RuleAction := .note
deriving DecidableEq, Repr

/-- The working configuration (section 10.1): every item, as applied. -/
structure Cfg where
  sumps : Vector SumpCfg 4
  probes : Vector ProbeCfg 8
  pumps : Vector PumpCfg 8
  barriers : Vector BarrierCfg 6
  feeds : Vector FeedCfg 12
  rules : Vector RuleCfg 16
  supplyLimit : Nat
  ageInterval : Nat
deriving DecidableEq, Repr

/-- The factory image (section 10.1): every default, and every enable no. -/
def Cfg.factory : Cfg where
  sumps := Vector.replicate 4 {}
  probes := Vector.replicate 8 {}
  pumps := Vector.replicate 8 {}
  barriers := Vector.replicate 6 {}
  feeds := #v[{ rank := 0 }, { rank := 1 }, { rank := 2 }, { rank := 3 }, { rank := 4 }, { rank := 5 },
    { rank := 6 }, { rank := 7 }, { rank := 8 }, { rank := 9 }, { rank := 10 }, { rank := 11 }]
  rules := Vector.replicate 16 {}
  supplyLimit := 4
  ageInterval := 30

/-- The lockout set (section 10.4): membership of each pump and barrier. -/
structure Locks where
  pumps : Vector Bool 8
  barriers : Vector Bool 6
deriving DecidableEq, Repr

/-- The empty lockout set. -/
def Locks.none : Locks := ⟨Vector.replicate 8 false, Vector.replicate 6 false⟩

/-- A configuration image (section 10): the configuration with the lockout set. -/
structure Image where
  cfg : Cfg
  locks : Locks
deriving DecidableEq, Repr

end Sys2Proof.Machine

namespace Sys2Proof.Config

open Sys2Proof.Machine

/-! ### Free values -/

/-- Free value (log 10). How far above 3441 the raw code stands of a loop current, in µA, above the 25,006 µA at which R1's formula leaves 0..4095:
which code it is, is open, but a current above about 21.0 mA is invalid (R2), so the code is one of 3441..4095. -/
opaque overRangeCode : Nat → Fin 655

/-- Free value (log 11). The check word that R156 computes over a whole image; the manual gives no algorithm. -/
opaque checkWord : Image → Word16

/-- Free value (log 11). The check word found in an image torn by a power loss or a bad read-back; the argument numbers the torn images. -/
opaque tornWord : Nat → Word16

/-- Free value (log 12). Which of the two timers a RUNNING pump's state record shows when the min-run timer and the no-flow timer both run
(R65: "whichever timer runs"). -/
opaque showsNoFlow : Bool

/-- Free value (log 13). The unit index byte of an arrival entry for a brim, alert or HH height, which names no unit (section 9.7). -/
opaque heightUnitByte : Byte

/-- Free value (log 14). A byte of the 5-byte fault detail beyond those the detail table of section 9.7 names; the argument is its place. -/
opaque detailPad : Nat → Byte

/-- Free value (log 14). The two bytes that carry a PUMP_NO_FLOW detail of more than 65,535 s (section 9.7 gives no width). -/
opaque noFlowWide : Nat → Word16

/-- Free value (log 15). What travels in a 4-byte sequence number field once the count has passed 4,294,967,295 (section 8.1). -/
opaque wideSequence : Nat → BitVec 32

/-- How many notices one command may give rise to before the model stops following them (log 7). It bounds the recursion only. -/
def cascadeBound : Nat := 4096

end Sys2Proof.Config
end

