-- ==== Sys2Proof/Machine/State.lean ====
section
/-! DEFINITION. The state of the Kolvec 412: the state tables of the fourteen blocks, the queue of
waiting commands, and `State.reset`. Plain data throughout. INVENTORY.md lists every field with the rule that names it. -/

namespace Sys2Proof.Machine

/-! ### Probe Front End, Contact Scanner, Output Drivers (chapter 1) -/

/-- Probe states (section 1.1). -/
inductive ProbeState where
  | disabled | unproven | good | lost
deriving DecidableEq, Repr

/-- The PFE's state of one probe (section 1.1). Rings hold their oldest entry first. -/
structure Probe where
  state : ProbeState := .disabled
  ring : List Nat := []
  raw : List Nat := []
  validRun : Nat := 0
  invalidRun : Nat := 0
  wasLost : Bool := false
deriving DecidableEq, Repr

/-- The CSC's state of one input (section 1.2): the accepted state (true for MADE) and the change count 0..2. -/
structure Contact where
  accepted : Bool := false
  count : Nat := 0
deriving DecidableEq, Repr

/-- Fault kinds of an output (R15). -/
inductive DriverFault where
  | shorted | openLoad
deriving DecidableEq, Repr

/-- The ODR's state of one output (section 1.3). A latch of `none` is CLEAR. -/
structure Driver where
  commanded : Bool := false
  energised : Bool := false
  latch : Option DriverFault := none
deriving DecidableEq, Repr

/-! ### Water Picture Unit and Protection Evaluator (chapters 2 and 3) -/

/-- One history ring entry (R22). -/
structure HistEntry where
  level : Nat
  substituted : Bool
  pumped : Nat
deriving DecidableEq, Repr

/-- Level sources (R19, R21). -/
inductive LevelSource where
  | higherOfTwo | primary | partner | held | assumedHigh | noData
deriving DecidableEq, Repr

/-- What an arrival entry is about (R29). -/
inductive HeightKind where
  | brim | alert | hh
  | barrier (b : Fin 6)
  | feed (f : Fin 12)
deriving DecidableEq, Repr

/-- One entry of the arrival list (R29): the height in mm and the arrival time in s, 65535 for NONE. -/
structure Arrival where
  kind : HeightKind
  height : Nat
  time : Nat
deriving DecidableEq, Repr

/-- A probe as a sweep took it (R30). -/
structure ProbeView where
  state : ProbeState := .disabled
  filtered : Option Nat := none
deriving DecidableEq, Repr

/-- The published picture of a sump (R30). -/
structure Picture where
  time : Nat := 0
  level : Option Nat := none
  source : LevelSource := .noData
  disagree : Bool := false
  primary : ProbeView := {}
  partner : ProbeView := {}
  entries : Nat := 0
  substituted : Nat := 0
  inflow : Int := 0
  netRise : Int := 0
  valid : Bool := false
  running : Nat := 0
  arrivals : List Arrival := []
deriving DecidableEq, Repr

/-- Sump states (R36). -/
inductive SumpState where
  | calm | alert | flood
deriving DecidableEq, Repr

/-- A sump's state in the WPU (section 2.1) and in the PEV (chapter 3): the rotation token is `token`, `duty` and `leadRan`. `alert` and `hh` are the
thresholds in force for the sump state: those configured when the PEV last handled a picture of the sump (R34, log 45). `reopen` holds the barriers' reopen
heights in force, those configured at that moment (R102, log 52). -/
structure Sump where
  ring : List HistEntry := []
  hasData : Bool := false
  disagree : Bool := false
  picture : Picture := {}
  state : SumpState := .calm
  token : Option (Fin 8) := none
  duty : Nat := 0
  leadRan : Bool := false
  alert : Nat := 1000
  hh : Nat := 1150
  reopen : Vector Nat 6 := Vector.replicate 6 800
deriving DecidableEq, Repr

/-- States of a trip rule (R47). -/
inductive RuleState where
  | idle | counting | fired
deriving DecidableEq, Repr

/-- The state of a trip rule and its counts (R47). -/
structure Rule where
  state : RuleState := .idle
  trueCount : Nat := 0
  falseCount : Nat := 0
deriving DecidableEq, Repr

/-! ### Faults -/

/-- Fault kinds, in the order of section 9.7. -/
inductive FaultKind where
  | pumpNotProved | pumpNoFlow | pumpOverload | budgetOverride | barrierNoLimit | barrierOverload | sealFail
  | feedbackMismatch | driverFault | configStore
deriving DecidableEq, Repr

/-- The code of a fault kind (section 9.7). -/
def FaultKind.code : FaultKind → Nat
  | .pumpNotProved => 0
  | .pumpNoFlow => 1
  | .pumpOverload => 2
  | .budgetOverride => 3
  | .barrierNoLimit => 4
  | .barrierOverload => 5
  | .sealFail => 6
  | .feedbackMismatch => 7
  | .driverFault => 8
  | .configStore => 9

/-! ### Pump Controller and Supply Arbiter (chapters 4 and 5) -/

/-- Pump states (section 4.3). -/
inductive PumpState where
  | off | starting | running | rest | failed | locked
deriving DecidableEq, Repr

/-- A subset of {AUTO, PORT_A, PORT_B, PORT_C}: a demand set (section 4.1) or closure demand set (section 6.1). -/
structure DemandSet where
  auto : Bool := false
  a : Bool := false
  b : Bool := false
  c : Bool := false
deriving DecidableEq, Repr

/-- One pump record (section 4.1). Timers hold the ms left and are `none` when stopped. `flowAtGrant` and `runningSince` (ms of part time) are
what R55 and R57 need for their fault details. -/
structure Pump where
  state : PumpState := .off
  demand : DemandSet := {}
  override : Bool := false
  locked : Bool := false
  budget : Nat := 6
  proving : Option Nat := none
  minRun : Option Nat := none
  minRunElapsed : Bool := false
  noFlow : Option Nat := none
  minOff : Option Nat := none
  failure : Option FaultKind := none
  flowAtGrant : Bool := false
  runningSince : Nat := 0
deriving DecidableEq, Repr

/-- A member of the pending-start set (R74), with the acting set last reported; its class follows from the set. -/
structure Waiting where
  pump : Fin 8
  acting : DemandSet
deriving DecidableEq, Repr

/-- The Supply Arbiter (chapter 5); the supply limit is a configuration item. An outstanding grant keeps the former pointer (R78). -/
structure Sar where
  count : Nat := 0
  waiting : List Waiting := []
  pointer : Option (Fin 4) := none
  outstanding : Option (Fin 8 × Option (Fin 4)) := none
deriving DecidableEq, Repr

/-! ### Barrier Controller and Drive Arbiter (chapter 6) -/

/-- Barrier states (section 6.1); `openEnd` is OPEN. -/
inductive BarrierState where
  | unhomed | openEnd | stopped | closing | opening | homing | closedUnsealed | sealed | fault | locked
deriving DecidableEq, Repr

/-- Release targets (section 6.1); `openEnd` is OPEN. -/
inductive Release where
  | openEnd | halt
deriving DecidableEq, Repr

/-- A subset of {PORT_A, PORT_B, PORT_C}: the home set (section 6.1). -/
structure PortSet where
  a : Bool := false
  b : Bool := false
  c : Bool := false
deriving DecidableEq, Repr

/-- One barrier record (section 6.1). A position of `none` is unknown. Timers hold the ms left. `releaseHeld`, the model's own, says that a LOCKOUT
found the release target as it stands: it gives no want until Port C's BARRIER_OPEN or the UNLOCK (R95, R96, log 47). -/
structure Barrier where
  state : BarrierState := .unhomed
  position : Option Nat := none
  closure : DemandSet := {}
  release : Release := .halt
  releaseHeld : Bool := false
  home : PortSet := {}
  locked : Bool := false
  travel : Nat := 0
  increment : Option Nat := none
  sealTimer : Option Nat := none
  failure : Option FaultKind := none
deriving DecidableEq, Repr

/-- The kind a waiting barrier gives the DAR (R84). -/
inductive DriveKind where
  | close | open_
deriving DecidableEq, Repr

/-- The Drive Arbiter (section 6.9). -/
structure Dar where
  slot1 : Option (Fin 6) := none
  slot2 : Option (Fin 6) := none
  waiting : List (Fin 6 × DriveKind) := []
  pointer : Option (Fin 6) := none
  outstanding : Option (Fin 6 × Option (Fin 6)) := none
deriving DecidableEq, Repr

/-! ### Shed Sequencer (chapter 7) -/

/-- Feed states (section 7.1). -/
inductive FeedState where
  | live | warned | deferred | shedWait | shedding | shed | restoreWait | restoring | fault
deriving DecidableEq, Repr

/-- A subset of {AUTO_PREDICT, AUTO_HARD, PORT_A, PORT_B}: the shed demand set (section 7.1). -/
structure ShedSet where
  predict : Bool := false
  hard : Bool := false
  a : Bool := false
  b : Bool := false
deriving DecidableEq, Repr

/-- Shed causes (section 7.1). -/
inductive ShedCause where
  | predict | hard | port | manual | atStart
deriving DecidableEq, Repr

/-- The configuration items of a feed that are read from the next picture or order (R120), for which the Shed Sequencer keeps the values in force. -/
structure FeedItems where
  sump : Fin 4 := 0
  trip : Nat := 1500
  lead : Nat := 900
  margin : Nat := 600
  band : Nat := 200
deriving DecidableEq, Repr

/-- One feed record (section 7.1); its entry in the coil queue is kept there. Deferral and pre-arm count whole seconds (R115). `items` holds the items in
force: those configured at the latest picture of the feed's sump or order on the feed (R120, log 56). -/
structure Feed where
  state : FeedState := .shed
  demand : ShedSet := {}
  request : Bool := false
  deferral : Option Nat := none
  preArm : Option Nat := none
  episode : Bool := false
  deferralUsed : Bool := false
  clear : Nat := 0
  cause : ShedCause := .atStart
  retry : Bool := false
  failure : Option FaultKind := none
  items : FeedItems := {}
deriving DecidableEq, Repr

/-- The operation of a coil (section 7.4). -/
inductive CoilOp where
  | shed | restore
deriving DecidableEq, Repr

/-- One entry of the coil queue (section 7.4). -/
structure CoilEntry where
  feed : Fin 12
  op : CoilOp
  number : Nat
deriving DecidableEq, Repr

/-- A pulse in progress or a check pending (section 7.4), with the cause that R111 takes from the set as it stood when the pulse began. -/
structure CoilWork where
  feed : Fin 12
  op : CoilOp
  cause : ShedCause
  left : Nat
deriving DecidableEq, Repr

/-- The coil supply (section 7.4). -/
structure Coil where
  queue : List CoilEntry := []
  pulse : Option CoilWork := none
  check : Option CoilWork := none
  recharge : Option Nat := none
  entries : Nat := 0
deriving DecidableEq, Repr

/-! ### Order Queue Unit (chapter 8) -/

/-- Order kinds, in the order of R145. -/
inductive OrderKind where
  | pumpStart | pumpStop | barrierClose | barrierOpen | barrierHome | feedShed | feedRestore | feedDefer | settle
deriving DecidableEq, Repr

/-- The target of an accepted order (section 8.1): a unit, or the pseudo-target PORT. -/
inductive Target where
  | pump (m : Fin 8)
  | barrier (b : Fin 6)
  | feed (f : Fin 12)
  | port
deriving DecidableEq, Repr

/-- One entry of an order queue (section 8.1). `seconds` is the FEED_DEFER's parameter, read at activation. -/
structure Entry where
  slot : Nat
  seq : Nat
  tag : Byte
  kind : OrderKind
  target : Target
  urgent : Bool
  active : Bool := false
  mark : Bool := false
  granted : Bool := false
  fixedDone : Bool := false
  settle : List Nat := []
  seconds : Nat := 0
deriving DecidableEq, Repr

/-- Outcomes of an order, in the order of section 9.7. -/
inductive Ending where
  | done | endedShort | disturbed | overridden | tooLate | stale | withdrawn | aborted
deriving DecidableEq, Repr

/-- The detail of a completion (section 8.1). A position is absent, unknown (`some none`) or known. -/
structure Detail where
  held : Bool := false
  unhomed : Bool := false
  seconds : Option Nat := none
  position : Option (Option Nat) := none
  fault : Option FaultKind := none
deriving DecidableEq, Repr

/-- A completion record (section 8.1). -/
structure Completion where
  slot : Nat
  seq : Nat
  tag : Byte
  kind : OrderKind
  target : Target
  urgent : Bool
  ending : Ending
  time : Nat
  detail : Detail
deriving DecidableEq, Repr

/-- One port's order queue and completion list (chapter 8), oldest first. -/
structure PortOrders where
  queue : List Entry := []
  done : List Completion := []
deriving DecidableEq, Repr

/-! ### Port controllers and Fault Capture (chapter 9) -/

/-- Event kinds, in code order (section 9.6). -/
inductive EventKind where
  | probeLost | probeBack | disagree | sumpState | ruleFired | ruleReleased | pumpFailed | pumpBudgetOut | barrierFault
  | sealLost | feedWarned | feedShed | feedLive | feedFault | deferEnded | orderDone | faultHeld | link | portReset
  | config | restarted
deriving DecidableEq, Repr

/-- The code of an event kind (section 9.6). -/
def EventKind.code : EventKind → Fin 21
  | .probeLost => 0
  | .probeBack => 1
  | .disagree => 2
  | .sumpState => 3
  | .ruleFired => 4
  | .ruleReleased => 5
  | .pumpFailed => 6
  | .pumpBudgetOut => 7
  | .barrierFault => 8
  | .sealLost => 9
  | .feedWarned => 10
  | .feedShed => 11
  | .feedLive => 12
  | .feedFault => 13
  | .deferEnded => 14
  | .orderDone => 15
  | .faultHeld => 16
  | .link => 17
  | .portReset => 18
  | .config => 19
  | .restarted => 20

/-- Receiver states (section 9); `broken` is BREAK. -/
inductive RxState where
  | idle | inFrame | skipping | replying | broken
deriving DecidableEq, Repr

/-- Result codes (section 9.5), in code order. -/
inductive Result where
  | accepted | clamped | noSlot | notPermitted | noTarget | lockedOut | badKind | notQuiet | orderViolation | valueInUse
  | duplicateRank | busy | nothingActive | empty | badRequest
deriving DecidableEq, Repr

/-- A reply (R143). -/
structure Reply where
  code : Byte
  tag : Byte
  result : Result
  free : Nat
  attention : Bool
  faultHeld : Bool
  quiet : Bool
  data : List Byte
deriving DecidableEq, Repr

/-- A port controller (chapter 9). `checked` is the body of a frame that has passed its check and is not yet answered, `reply` the reply being
sent, `overrun` whether the OVERRUN of this reply has been latched (R140). -/
structure PortState where
  rx : RxState := .skipping
  buffer : List Byte := []
  checked : Option (List Byte) := none
  reply : Option Reply := none
  overrun : Bool := false
  latches : Vector Word16 21
  mask : BitVec 21 := BitVec.allOnes 21
  attention : Bool := false
deriving DecidableEq, Repr

/-- The detail of a fault report (section 9.7). -/
inductive FaultDetail where
  | flowAtGrant (made : Bool)
  | runSeconds (n : Nat)
  | pumpState (st : PumpState)
  | starts (n : Nat)
  | travel (position : Option Nat) (st : Option BarrierState) (count : Option Nat)
  | sealTime (n : Nat)
  | operation (op : CoilOp)
  | driver (output : Fin 44) (kind : DriverFault)
  | none
deriving DecidableEq, Repr

/-- A fault report, and the fault record it fills (section 9.4). -/
structure FaultReport where
  kind : FaultKind
  unit : Option Target
  level : Option Nat
  time : Nat
  detail : FaultDetail
deriving DecidableEq, Repr

/-- The Fault Capture (section 9.4): bit k of the also-occurred set stands for the kind of code k. -/
structure Fcr where
  record : Option FaultReport := none
  also : Word16 := 0
deriving DecidableEq, Repr

/-! ### Configuration Store (chapter 10) -/

/-- A store write in progress (R156): ms left, and the image being written. -/
structure Writing where
  left : Nat
  image : Image
deriving DecidableEq, Repr

/-- The nonvolatile image and the store state (section 10). `sound` says whether the stored image passes its check (log 11). -/
structure Store where
  image : Image
  word : Word16
  sound : Bool
  writing : Option Writing
  restartHeld : Bool
deriving DecidableEq, Repr

/-! ### Notices between the blocks -/

/-- What the PMC tells the OQU (R65). -/
inductive PumpNews where
  | granted | running | leftRunning
  | failed (kind : FaultKind)
  | locked | unlocked | disabled
deriving DecidableEq, Repr

/-- What the BRC tells the OQU (R101, R126). `wantLost`: the want changed from OPEN or HOME to CLOSE or to none. -/
inductive BarrierNews where
  | sealed | reachedOpen | closedUnsealed | sealFailed
  | faulted (kind : FaultKind)
  | homingDisturbed | turned | halted | wantLost | locked | unlocked | disabled
deriving DecidableEq, Repr

/-- What the SHS tells the OQU (R119). `shedAgain`: shed again while a restore request stood. -/
inductive FeedNews where
  | reachedShed | reachedLive
  | failed (kind : FaultKind)
  | shedAgain | disabled
deriving DecidableEq, Repr

/-- One notice from a block to another, made inside a step and taken inside the same step (R65, R101, R119 and the paths of 00_scope). -/
inductive Notice where
  /-- CSC to owner (R11). -/
  | contact (k : Fin 52) (made : Bool)
  /-- ODR to owner (R15, R16). -/
  | driverFault (d : Fin 44) (kind : DriverFault)
  /-- One sump's evaluation at a sweep (R18). -/
  | sweepSump (s : Fin 4)
  /-- WPU to PEV (R30). -/
  | pictureToPev (s : Fin 4)
  /-- WPU to SHS (R30). -/
  | pictureToShs (s : Fin 4)
  /-- The SHS's handling of one chain of a publication (R105). -/
  | shsChain (s : Fin 4) (chain : Fin 4)
  /-- SHS to PEV: a feed of the sump changed state or set (R37). -/
  | feedReport (s : Fin 4)
  /-- PMC to PEV: the pump, configured to the sump, left RUNNING (R43). -/
  | pumpLeft (m : Fin 8) (s : Fin 4)
  /-- PMC to SAR (R53, R65). -/
  | sarPending (m : Fin 8) (acting : DemandSet)
  | sarNotPending (m : Fin 8)
  | sarActing (m : Fin 8) (acting : DemandSet)
  | sarFreed (m : Fin 8)
  | sarTaken (m : Fin 8)
  | sarHandedBack (m : Fin 8)
  /-- SAR to PMC (R78). -/
  | grantPump (m : Fin 8)
  /-- BRC to DAR (R84, R101). -/
  | darWants (b : Fin 6) (kind : DriveKind)
  | darNoWant (b : Fin 6)
  | darFreed (b : Fin 6)
  | darTaken (b : Fin 6)
  | darHandedBack (b : Fin 6)
  /-- DAR to BRC (R100). -/
  | grantBarrier (b : Fin 6)
  /-- PMC, BRC, SHS to OQU (R126). -/
  | pumpNews (m : Fin 8) (news : PumpNews)
  | barrierNews (b : Fin 6) (news : BarrierNews)
  | feedNews (f : Fin 12) (news : FeedNews)
  /-- OQU: the next entry of a port on a target is due after an ABORT (R124, R137). -/
  | activate (p : Port) (target : Target)
  /-- PMC, BRC, SHS to FCR (R151). -/
  | fault (r : FaultReport)
deriving DecidableEq, Repr

/-! ### The state -/

/-- Why the machine stops with a fault: never. No rule of the manual stops the part, so the type has no constructor. -/
inductive Fault where
deriving DecidableEq, Repr

/-- Why a command has no meaning. -/
inductive Refusal where
  /-- Raised by `exec` alone, for a command that has no meaning yet; safe (the model stops). No arm raises it. -/
  | notModelled (mnemonic : String)
deriving DecidableEq, Repr

/-- The state of the part. -/
structure State where
  /-- Whether power is applied (R156, R158). -/
  powered : Bool
  /-- Part time in ms; the part time of the manual is its whole seconds (00_scope, "Units and ranges"). -/
  timeMs : Nat
  cfg : Cfg
  locks : Locks
  probes : Vector Probe 8
  contacts : Vector Contact 52
  drivers : Vector Driver 44
  sumps : Vector Sump 4
  rules : Vector Rule 16
  pumps : Vector Pump 8
  /-- The hour reload timer, ms left (R64). -/
  hourLeft : Nat
  sar : Sar
  barriers : Vector Barrier 6
  dar : Dar
  feeds : Vector Feed 12
  coil : Coil
  orders : Vector PortOrders 3
  /-- The next acceptance sequence number (R122). -/
  nextSeq : Nat
  /-- The age timer, ms left (R135). -/
  ageLeft : Nat
  ports : Vector PortState 3
  fcr : Fcr
  store : Store
  /-- A RESTART answered and waiting for the end of its reply (R147). -/
  restartAtReply : Bool
  /-- The model's own: how many torn images there have been (log 11). -/
  tornCount : Nat
  /-- The model's own: the notices of the command in progress, not yet taken (log 7); each command starts with none. -/
  work : List Notice
  /-- The commands that wait, first in first out. -/
  pending : List Instr
deriving DecidableEq, Repr

/-- The picture of a disabled sump at reset (R31, R33), its watched heights being those of the factory image. -/
def Picture.atReset : Picture :=
  { arrivals := [⟨.brim, 1200, 65535⟩, ⟨.alert, 1000, 65535⟩, ⟨.hh, 1150, 65535⟩] }

/-- A port right after power-on (R147): RESTARTED latched with source 0, every mask bit set, attention asserted. -/
def PortState.atReset : PortState :=
  { latches := (Vector.replicate 21 0).set 20 1, attention := true }

/-- The part right after power-on (R158), every contact having read OPEN at the first scan (log 2) and the store holding a sound factory
image (log 1). -/
def State.reset : State where
  powered := true
  timeMs := 0
  cfg := Cfg.factory
  locks := Locks.none
  probes := Vector.replicate 8 {}
  contacts := Vector.replicate 52 {}
  drivers := Vector.replicate 44 {}
  sumps := Vector.replicate 4 { picture := Picture.atReset }
  rules := Vector.replicate 16 {}
  pumps := Vector.replicate 8 {}
  hourLeft := 3600000
  sar := {}
  barriers := Vector.replicate 6 {}
  dar := {}
  feeds := Vector.replicate 12 {}
  coil := { recharge := some 800 }
  orders := Vector.replicate 3 {}
  nextSeq := 1
  ageLeft := 30000
  ports := Vector.replicate 3 PortState.atReset
  fcr := {}
  store := { image := ⟨Cfg.factory, Locks.none⟩, word := Config.checkWord ⟨Cfg.factory, Locks.none⟩, sound := true, writing := none, restartHeld := false }
  restartAtReply := false
  tornCount := 0
  work := []
  pending := []

end Sys2Proof.Machine
end

