-- ==== Sys2Proof/Machine/Ops.lean ====
section
/-! DEFINITION. The named operations over the state that the blocks share: reading and writing one unit's record, the contacts and outputs of a
unit (sections 1.2 and 1.3), the Output Drivers' answers to a command (R14, R16), raising an event (R148), reporting a fault (R151) and
handing a notice to another block. -/

namespace Sys2Proof.Machine

/-- The items of a feed that are read from the next picture or order (R120). -/
def FeedCfg.items (c : FeedCfg) : FeedItems := ⟨c.sump, c.trip, c.lead, c.margin, c.band⟩

/-- The reopen heights as configured, which the Protection Evaluator uses from the next picture (R102). -/
def Cfg.reopenHeights (c : Cfg) : Vector Nat 6 := c.barriers.map (·.reopenHeight)

namespace State

/-! ### One unit's record -/

def setProbe (s : State) (i : Fin 8) (v : Probe) : State := { s with probes := s.probes.set i v }
def setDriver (s : State) (d : Fin 44) (v : Driver) : State := { s with drivers := s.drivers.set d v }
def setSump (s : State) (i : Fin 4) (v : Sump) : State := { s with sumps := s.sumps.set i v }
def setRule (s : State) (i : Fin 16) (v : Rule) : State := { s with rules := s.rules.set i v }
def setPump (s : State) (m : Fin 8) (v : Pump) : State := { s with pumps := s.pumps.set m v }
def setBarrier (s : State) (b : Fin 6) (v : Barrier) : State := { s with barriers := s.barriers.set b v }
def setFeed (s : State) (f : Fin 12) (v : Feed) : State := { s with feeds := s.feeds.set f v }
def setPort (s : State) (p : Port) (v : PortState) : State := { s with ports := s.ports.set p.idx v }
def setOrders (s : State) (p : Port) (v : PortOrders) : State := { s with orders := s.orders.set p.idx v }

/-- A feed's items as configured come into force: with a picture of its sump, or with an order on it that becomes ACTIVE (R120, log 56). -/
def takeItems (s : State) (f : Fin 12) : State := s.setFeed f { s.feeds[f] with items := s.cfg.feeds[f].items }

/-- The state of one port controller. -/
def port (s : State) (p : Port) : PortState := s.ports[p.idx]

/-- The order queue and completion list of one port. -/
def ordersOf (s : State) (p : Port) : PortOrders := s.orders[p.idx]

/-- Part time in s, a 32-bit count (00_scope, "Units and ranges"). -/
def partTime (s : State) : Nat := s.timeMs / 1000 % 4294967296

/-- Hand a notice to another block: it is taken later in the same step. -/
def emit (s : State) (n : Notice) : State := { s with work := s.work ++ [n] }

/-- Hand a notice on when a condition holds. -/
def emitIf (s : State) (c : Bool) (n : Notice) : State := if c then s.emit n else s

end State

/-! ### Indices of contacts and outputs (sections 1.2 and 1.3) -/

def flowK (m : Fin 8) : Fin 52 := ⟨m, by omega⟩
def overloadK (m : Fin 8) : Fin 52 := ⟨8 + m, by omega⟩
def openLimitK (b : Fin 6) : Fin 52 := ⟨16 + b, by omega⟩
def closedLimitK (b : Fin 6) : Fin 52 := ⟨22 + b, by omega⟩
def sealK (b : Fin 6) : Fin 52 := ⟨28 + b, by omega⟩
def driveOverloadK (b : Fin 6) : Fin 52 := ⟨34 + b, by omega⟩
def auxK (f : Fin 12) : Fin 52 := ⟨40 + f, by omega⟩

def runD (m : Fin 8) : Fin 44 := ⟨m, by omega⟩
def driveCloseD (b : Fin 6) : Fin 44 := ⟨8 + b, by omega⟩
def driveOpenD (b : Fin 6) : Fin 44 := ⟨14 + b, by omega⟩
def shedCoilD (f : Fin 12) : Fin 44 := ⟨20 + f, by omega⟩
def restoreCoilD (f : Fin 12) : Fin 44 := ⟨32 + f, by omega⟩

/-- The coil output of an operation. -/
def coilD (op : CoilOp) (f : Fin 12) : Fin 44 :=
  match op with
  | .shed => shedCoilD f
  | .restore => restoreCoilD f

/-- The other output of a pair (section 1.3); a run output has none. -/
def partnerD (d : Fin 44) : Option (Fin 44) :=
  if d.val < 8 then none
  else if h : d.val < 14 then some ⟨d.val + 6, by omega⟩
  else if h : d.val < 20 then some ⟨d.val - 6, by omega⟩
  else if h : d.val < 32 then some ⟨d.val + 12, by omega⟩
  else some ⟨d.val - 12, by omega⟩

/-- The accepted state of a contact, true for MADE (R13). -/
def State.made (s : State) (k : Fin 52) : Bool := s.contacts[k].accepted

/-! ### Output Drivers (section 1.3) -/

/-- De-energise an output and set its commanded state to OFF; the latch stays (R14, R16). -/
def Driver.off (d : Driver) : Driver := { d with commanded := false, energised := false }

/-- A command OFF to an output (R14, R16). -/
def State.driverOff (s : State) (d : Fin 44) : State := s.setDriver d s.drivers[d].off

/-- R14: the partner of an output that stands ON is put OFF first. -/
def State.partnerOff (s : State) (d : Fin 44) : State :=
  match partnerD d with
  | none => s
  | some e => if s.drivers[e].commanded then s.driverOff e else s

/-- A command ON to an output: R14 when its latch is CLEAR; R16 when it holds a fault, with a further report to the owner. DESIGN CHOICE: the partner
that stands ON is put OFF first in both cases; R14 hands a latched output to R16, which says nothing of the partner (log 41). -/
def State.driverOn (s : State) (d : Fin 44) : State :=
  let t := s.partnerOff d
  match t.drivers[d].latch with
  | none => t.setDriver d { t.drivers[d] with commanded := true, energised := true }
  | some k => (t.setDriver d { t.drivers[d] with commanded := true, energised := false }).emit (.driverFault d k)

/-- The owner clears a latch (R16): the output stays de-energised and its commanded state becomes OFF. -/
def State.driverClear (s : State) (d : Fin 44) : State := s.setDriver d {}

/-- R15: the load of an energised output fails; the latch takes the fault and the owner gets the report. An output that stands
de-energised is not watched. -/
def State.driverTrip (s : State) (d : Fin 44) (k : DriverFault) : State :=
  if s.drivers[d].energised then
    (s.setDriver d { s.drivers[d] with energised := false, latch := some k }).emit (.driverFault d k)
  else s

/-! ### Events (section 9.3) -/

/-- Add a source index to one latch set of a port (R148). -/
def PortState.latch (p : PortState) (k : EventKind) (src : Nat) : PortState :=
  { p with latches := p.latches.set k.code (p.latches[k.code] ||| (1#16 <<< src)) }

/-- Latch an event on one port alone (R148: ORDER_DONE and LINK). -/
def State.latchOn (s : State) (p : Port) (k : EventKind) (src : Nat) : State := s.setPort p ((s.port p).latch k src)

/-- Raise an event: every port latches it (R148). -/
def State.raise (s : State) (k : EventKind) (src : Nat) : State :=
  ((s.latchOn .a k src).latchOn .b k src).latchOn .c k src

/-! ### Faults (section 9.4) -/

/-- A report reaches the Fault Capture (R151): it fills an empty record and latches FAULT_HELD, or joins the also-occurred set. -/
def State.capture (s : State) (r : FaultReport) : State :=
  match s.fcr.record with
  | none => { s with fcr := { s.fcr with record := some r } }.raise .faultHeld r.kind.code
  | some _ => { s with fcr := { s.fcr with also := s.fcr.also ||| (1#16 <<< r.kind.code) } }

/-- The level of the latest picture of a sump, absent when that picture is NO_DATA (R61, R93, R117). -/
def State.levelOf (s : State) (i : Fin 4) : Option Nat := s.sumps[i].picture.level

/-- Report a fault of a unit of a sump to the Fault Capture, with the level and the part time of the moment. -/
def State.report (s : State) (kind : FaultKind) (unit : Target) (sump : Fin 4) (detail : FaultDetail) : State :=
  s.emit (.fault ⟨kind, some unit, s.levelOf sump, s.partTime, detail⟩)

/-! ### Sets (00_scope, "Sources, sets and classes") -/

/-- Whether a port's member is in a demand set. -/
def DemandSet.has (d : DemandSet) : Port → Bool
  | .a => d.a
  | .b => d.b
  | .c => d.c

/-- Add or remove a port's member. -/
def DemandSet.put (d : DemandSet) (p : Port) (v : Bool) : DemandSet :=
  match p with
  | .a => { d with a := v }
  | .b => { d with b := v }
  | .c => { d with c := v }

/-- Whether a demand set has a member. -/
def DemandSet.some (d : DemandSet) : Bool := d.auto || d.a || d.b || d.c

/-- The PORT_C member alone, or nothing (R52, R83). -/
def DemandSet.onlyC (d : DemandSet) : DemandSet := { c := d.c }

/-- Add or remove a port in a home set. -/
def PortSet.put (d : PortSet) (p : Port) (v : Bool) : PortSet :=
  match p with
  | .a => { d with a := v }
  | .b => { d with b := v }
  | .c => { d with c := v }

/-- Whether a home set has a member. -/
def PortSet.some (d : PortSet) : Bool := d.a || d.b || d.c

/-- Whether a shed demand set has a member. -/
def ShedSet.some (d : ShedSet) : Bool := d.predict || d.hard || d.a || d.b

/-- Whether a shed demand set holds AUTO_PREDICT or AUTO_HARD. -/
def ShedSet.auto (d : ShedSet) : Bool := d.predict || d.hard

/-- Add or remove a supervisory port's member; Port C has none (00_scope). -/
def ShedSet.put (d : ShedSet) (p : Port) (v : Bool) : ShedSet :=
  match p with
  | .a => { d with a := v }
  | .b => { d with b := v }
  | .c => d

/-- The indices that follow `i` round a ring of `n`, `i` itself last; all of them from 0 when there is none (R76, R99). -/
def ringAfter (n : Nat) [NeZero n] (i : Option (Fin n)) : List (Fin n) :=
  match i with
  | none => List.finRange n
  | some k => (List.finRange n).map fun j => k + j + 1

/-! ### All units in turn -/

/-- Every unit's record changed alike. -/
def mapUnits {α : Type} {n : Nat} (f : α → α) (v : Vector α n) : Vector α n := ⟨⟨v.toList.map f⟩, by simp⟩

/-- Apply an operation for each index in turn. -/
def State.each {α : Type} (s : State) (xs : List α) (f : State → α → State) : State := xs.foldl f s

end Sys2Proof.Machine
end

