-- ==== Sys2Proof/Machine/Clock.lean ====
section
/-! DEFINITION. What one millisecond of part time does while no command waits (log 8): every running timer has one less left. The expiries themselves
are commands. -/

namespace Sys2Proof.Machine

/-- A running timer with one less left; it stands at 0 until its expiry is commanded. -/
def countDown (t : Option Nat) : Option Nat := t.map (· - 1)

/-- A pump's four timers. -/
def Pump.ticked (p : Pump) : Pump :=
  { p with proving := countDown p.proving, minRun := countDown p.minRun, noFlow := countDown p.noFlow, minOff := countDown p.minOff }

/-- A barrier's two timers. -/
def Barrier.ticked (b : Barrier) : Barrier := { b with increment := countDown b.increment, sealTimer := countDown b.sealTimer }

/-- A feed's deferral and pre-arm, which count whole seconds (R115). -/
def Feed.ticked (f : Feed) : Feed := { f with deferral := countDown f.deferral, preArm := countDown f.preArm }

/-- A pulse or check with one ms less left. -/
def CoilWork.ticked (w : CoilWork) : CoilWork := { w with left := w.left - 1 }

/-- The coil supply's timers (section 7.4). -/
def Coil.ticked (c : Coil) : Coil :=
  { c with pulse := c.pulse.map CoilWork.ticked, check := c.check.map CoilWork.ticked, recharge := countDown c.recharge }

/-- The write timer (R156). -/
def Store.ticked (c : Store) : Store := { c with writing := c.writing.map fun w => { w with left := w.left - 1 } }

/-- One millisecond passes. Without power, part time does not run. -/
def State.tick (s : State) : State :=
  if s.powered then
    { s with
      timeMs := s.timeMs + 1, pumps := mapUnits Pump.ticked s.pumps, barriers := mapUnits Barrier.ticked s.barriers
      feeds := if (s.timeMs + 1) % 1000 = 0 then mapUnits Feed.ticked s.feeds else s.feeds
      coil := s.coil.ticked, store := s.store.ticked, hourLeft := s.hourLeft - 1, ageLeft := s.ageLeft - 1 }
  else s

end Sys2Proof.Machine
end

