-- ==== Sys2Proof/Machine/Drive.lean ====
section
/-! DEFINITION. The Drive Arbiter (section 6.9): two drive slots, the waiting set, decisions and grant order. -/

namespace Sys2Proof.Machine

/-- Put a barrier in the first free slot (R98). -/
def Dar.take (d : Dar) (b : Fin 6) : Dar :=
  if d.slot1.isNone then { d with slot1 := some b } else { d with slot2 := some b }

/-- Free the slot a barrier holds (R98). -/
def Dar.free (d : Dar) (b : Fin 6) : Dar :=
  { d with slot1 := if d.slot1 = some b then none else d.slot1, slot2 := if d.slot2 = some b then none else d.slot2 }

/-- Whether a slot is free. -/
def Dar.hasFree (d : Dar) : Bool := d.slot1.isNone || d.slot2.isNone

/-- The first waiting barrier of a kind in ring order after the pointer (R99). -/
def Dar.firstOf (d : Dar) (k : DriveKind) : Option (Fin 6) :=
  (ringAfter 6 d.pointer).find? fun b => d.waiting.any fun w => w == (b, k)

/-- The first barrier in grant order (R99): closers before openers. -/
def Dar.first (d : Dar) : Option (Fin 6) :=
  match d.firstOf .close with
  | some b => some b
  | none => d.firstOf .open_

/-- A waiting set without a barrier. -/
def Dar.without (d : Dar) (b : Fin 6) : Dar := { d with waiting := d.waiting.filter (·.1 != b) }

namespace State

/-- A decision (R99): while no grant is outstanding, a slot is free and a barrier waits, the first in grant order is granted (R100). -/
def darDecide (s : State) : State :=
  if s.dar.outstanding.isNone && s.dar.hasFree then
    match s.dar.first with
    | some b =>
      { s with dar := { (s.dar.without b).take b with pointer := some b, outstanding := some (b, s.dar.pointer) } }.emit (.grantBarrier b)
    | none => s
  else s

/-- A barrier wants a slot, or the kind of its wait has changed (R98, R99). -/
def darWants (s : State) (b : Fin 6) (k : DriveKind) : State :=
  { s with dar := { s.dar.without b with waiting := (s.dar.without b).waiting ++ [(b, k)] } }.darDecide

/-- A barrier no longer wants a slot, or is withdrawn (R98). -/
def darNoWant (s : State) (b : Fin 6) : State := { s with dar := s.dar.without b }

/-- A slot is freed (R98, R99). -/
def darFreed (s : State) (b : Fin 6) : State := { s with dar := s.dar.free b }.darDecide

/-- A grant has been taken (R100); the DAR looks again (R99). -/
def darTaken (s : State) : State := { s with dar := { s.dar with outstanding := none } }.darDecide

/-- A grant is handed back (R100): the slot is freed, the pointer returns to the kept value, and a decision is made. -/
def darHandedBack (s : State) (b : Fin 6) : State :=
  { s with dar := { s.dar.free b with
      outstanding := none
      pointer := match s.dar.outstanding with
        | some (_, former) => former
        | none => s.dar.pointer } }.darDecide

end State

end Sys2Proof.Machine
end

