-- ==== Sys2Proof/Machine/Bytes.lean ====
section
/-! DEFINITION. How numbers travel on a port line: high byte first, signed fields in two's complement (section 9.1), and the CRC of R141. -/

namespace Sys2Proof.Machine

/-- The low byte of a number. -/
def byte (n : Nat) : Byte := BitVec.ofNat 8 n

/-- A flag as a byte: 1 when set (log 16). -/
def flagByte (b : Bool) : Byte := if b then 1 else 0

/-- A two-byte field, high byte first (section 9.1). -/
def be16 (n : Nat) : List Byte := [byte (n / 256), byte n]

/-- A four-byte field, high byte first (section 9.1). -/
def be32 (n : Nat) : List Byte := [byte (n / 16777216), byte (n / 65536), byte (n / 256), byte n]

/-- A signed two-byte field in two's complement (section 9.1). -/
def beInt (v : Int) : List Byte := be16 (BitVec.ofInt 16 v).toNat

/-- A two-byte field that may be absent: 0xFFFF (section 9.7). -/
def be16Opt : Option Nat → List Byte
  | some n => be16 n
  | none => be16 0xFFFF

/-- A one-byte field that may be absent: 0xFF (section 9.7). -/
def byteOpt : Option Nat → Byte
  | some n => byte n
  | none => 0xFF

/-- A position in a record: 0xFFFE when unknown (section 9.7). -/
def bePosition : Option Nat → List Byte
  | some n => be16 n
  | none => be16 0xFFFE

/-- One bit step of the CRC of R141: shift left, and fold the polynomial 0x1021 in when a one leaves at the top. -/
def crcBit (r : Word16) : Word16 :=
  if r.getLsbD 15 then (r <<< 1) ^^^ 0x1021#16 else r <<< 1

/-- One byte step of the CRC, most significant bit first (R141). -/
def crcByte (r : Word16) (b : Byte) : Word16 :=
  crcBit (crcBit (crcBit (crcBit (crcBit (crcBit (crcBit (crcBit (r ^^^ (b.zeroExtend 16 <<< 8)))))))))

/-- The CRC-16 of R141: preset 0xFFFF, no reflection, no final inversion. -/
def crc16 (bytes : List Byte) : Word16 := bytes.foldl crcByte 0xFFFF#16

/-- A frame around a body (section 9.7): start byte, length, body, CRC high byte first over length and body. -/
def frameOf (start : Byte) (body : List Byte) : List Byte :=
  start :: byte body.length :: body ++ be16 (crc16 (byte body.length :: body)).toNat

end Sys2Proof.Machine
end

