-- ==== Sys2Proof/Machine/Feeds.lean ====
section
/-! DEFINITION. The Shed Sequencer (chapter 7): the judging of pictures, chains, the coil queue and its pulses, restores, deferrals, manual operation and
faults. A settled chain is one whose shed and restore tests (R108, R112) have been made since its last change. -/

namespace Sys2Proof.Machine

/-- A live feed (section 7.1). -/
def FeedState.isLive : FeedState → Bool
  | .live | .warned | .deferred => true
  | _ => false

/-- The shed cause that a shed demand set gives (R111, R118). -/
def ShedSet.cause (d : ShedSet) (otherwise : ShedCause) : ShedCause :=
  if d.hard then .hard else if d.predict then .predict else otherwise

/-- The cause R118 takes for a contact found OPEN: MANUAL when the set is empty. -/
def ShedSet.causeFound (d : ShedSet) : ShedCause := if d.some then d.cause .port else .manual

namespace State

/-- The arrival time in the feed's own entry of its sump's latest picture (section 7.1); NONE without an entry. -/
def feedArrival (s : State) (f : Fin 12) : Nat :=
  match s.sumps[s.feeds[f].items.sump].picture.arrivals.find? (fun a => a.kind == .feed f) with
  | some a => a.time
  | none => 65535

/-- Whether the arrival lies within the lead time. Here and in the next two tests the items are those in force (R120, log 56). -/
def withinLead (s : State) (f : Fin 12) : Bool := decide (s.feedArrival f ≤ s.feeds[f].items.lead)

/-- Whether the arrival lies within the lead time plus the warn margin. -/
def withinWarning (s : State) (f : Fin 12) : Bool := decide (s.feedArrival f ≤ s.feeds[f].items.lead + s.feeds[f].items.margin)

/-- Whether the level lies below the trip height less the restore band (R112, third condition). -/
def belowBand (s : State) (f : Fin 12) : Bool :=
  match s.levelOf s.feeds[f].items.sump with
  | some l => decide (l + s.feeds[f].items.band < s.feeds[f].items.trip)
  | none => false

/-! ### Writing a record -/

/-- The episode flags after a change from `o` to `v` (R104). -/
def episodeAfter (o v : Feed) : Feed :=
  let gains := (v.demand.predict && !o.demand.predict) || (v.demand.hard && !o.demand.hard)
  let defers := v.state == .deferred && o.state != .deferred
  let warns := v.state == .warned && o.state != .warned
  let w := if !o.episode && (gains || defers || warns) then { v with episode := true, deferralUsed := defers } else v
  if v.state == .live && o.state != .live then { w with episode := false } else w

/-- Whether entering `v` from `o` ends a deferral in force: entry to SHED, FAULT or LIVE (R115). -/
def endsDeferral (o v : Feed) : Bool :=
  v.deferral.isSome && v.state != o.state && (v.state == .shed || v.state == .fault || v.state == .live)

/-- Write a feed record: the episode follows (R104), a deferral may end (R115), and a change of state or set is reported to the
Protection Evaluator (R37, R104). -/
def writeFeed (s : State) (f : Fin 12) (v : Feed) : State :=
  let o := s.feeds[f]
  let w := episodeAfter o v
  let t := if endsDeferral o v then (s.setFeed f { w with deferral := none }).raise .deferEnded f else s.setFeed f w
  t.emitIf (v.state != o.state || v.demand != o.demand) (.feedReport s.feeds[f].items.sump)

/-- Change a feed record. -/
def changeFeed (s : State) (f : Fin 12) (g : Feed → Feed) : State := s.writeFeed f (g s.feeds[f])

/-- End a deferral in force (R115). -/
def endDeferral (s : State) (f : Fin 12) : State :=
  let v := s.feeds[f]
  if v.deferral.isSome then (s.setFeed f { v with deferral := none }).raise .deferEnded f else s

/-- Clear the restore request because of a shed demand; the OQU is told when a request stood (R109, R112, R119). -/
def dropRequest (s : State) (f : Fin 12) : State :=
  if s.feeds[f].request then (s.setFeed f { s.feeds[f] with request := false }).emit (.feedNews f .shedAgain) else s

/-! ### Chain conditions -/

/-- The enabled feeds of a feed's chain of which a rank relation holds. -/
def chainAll (s : State) (f : Fin 12) (rel : Nat → Nat → Bool) (ok : FeedState → Bool) : Bool :=
  (List.finRange 12).all fun g =>
    !(s.cfg.feeds[g].enable && s.cfg.feeds[g].chain == s.cfg.feeds[f].chain && rel s.cfg.feeds[g].rank s.cfg.feeds[f].rank) ||
      ok s.feeds[g].state

/-- The chain condition (R108). -/
def chainCondition (s : State) (f : Fin 12) : Bool :=
  s.feeds[f].demand.hard || s.chainAll f (fun x y => decide (x < y)) fun st => st == .shed || st == .fault

/-- The fourth restore condition (R112): every enabled feed of higher rank is LIVE, WARNED, DEFERRED or FAULT. -/
def higherBack (s : State) (f : Fin 12) : Bool := s.chainAll f (fun x y => decide (y < x)) fun st => st.isLive || st == .fault

/-- Whether a feed of higher rank stands in SHED_WAIT (R112). -/
def higherWaits (s : State) (f : Fin 12) : Bool := !s.chainAll f (fun x y => decide (y < x)) fun st => st != .shedWait

/-- The first three restore conditions (R112). -/
def restoreWanted (s : State) (f : Fin 12) : Bool := !s.feeds[f].demand.some && s.feeds[f].request && s.belowBand f

/-- The four restore conditions (R112). -/
def restoreReady (s : State) (f : Fin 12) : Bool := s.restoreWanted f && s.higherBack f

/-! ### The coil queue (R110) -/

/-- The operation a feed is queued for. -/
def queuedFor (s : State) (f : Fin 12) : Option CoilOp := (s.coil.queue.find? fun e => e.feed == f).map (·.op)

/-- A feed leaves the coil queue. -/
def unqueue (s : State) (f : Fin 12) : State := { s with coil := { s.coil with queue := s.coil.queue.filter fun e => e.feed != f } }

/-- The coil is idle (R110). -/
def coilIdle (s : State) : Bool := s.coil.pulse.isNone && s.coil.recharge.isNone

/-- Service order (R110): whether an entry is picked before another. -/
def servedBefore (s : State) (x y : CoilEntry) : Bool :=
  let rx := s.cfg.feeds[x.feed].rank
  let ry := s.cfg.feeds[y.feed].rank
  match x.op, y.op with
  | .shed, .restore => true
  | .restore, .shed => false
  | .shed, .shed =>
    let hx := s.feeds[x.feed].demand.hard
    let hy := s.feeds[y.feed].demand.hard
    if hx != hy then hx else decide (rx < ry ∨ (rx = ry ∧ x.number < y.number))
  | .restore, .restore => decide (ry < rx ∨ (rx = ry ∧ x.number < y.number))

/-- The first entry in service order. -/
def firstEntry (s : State) : Option CoilEntry :=
  s.coil.queue.foldl (fun best e =>
    match best with
    | none => some e
    | some b => if s.servedBefore e b then some e else best) none

/-- A pulse begins (R110): the feed leaves the queue, its coil is commanded ON, and a shed pulse ends a deferral (R115). -/
def beginPulse (s : State) (f : Fin 12) (op : CoilOp) : State :=
  let t := (s.unqueue f)
  let u := match op with
    | .shed => (t.endDeferral f).changeFeed f fun v => { v with state := .shedding }
    | .restore => t.changeFeed f fun v => { v with state := .restoring }
  { u with coil := { u.coil with pulse := some ⟨f, op, s.feeds[f].demand.cause .port, 200⟩ } }.driverOn (coilD op f)

/-- A feed in RESTORE_WAIT for which the four conditions do not all hold (R112): it leaves the queue, and goes back to SHED unless only
the fourth fails with no higher feed in SHED_WAIT. DESIGN CHOICE: its shed cause stays the former one (log 65). -/
def failRestore (s : State) (f : Fin 12) : State :=
  let t := s.unqueue f
  if s.restoreWanted f then
    if s.higherWaits f then t.changeFeed f fun v => { v with state := .shed } else t
  else
    let u := t.changeFeed f fun v => { v with state := .shed }
    if s.feeds[f].demand.some then u.dropRequest f else u

/-- The SHS serves the queue (R110): the first entry in service order that still qualifies is pulsed; one that fails leaves the queue.
The number bounds how many entries are tried. -/
def serveCoil : Nat → State → State
  | 0, s => s
  | n + 1, s =>
    match s.firstEntry with
    | none => s
    | some e =>
      match e.op with
      | .shed => if s.chainCondition e.feed then s.beginPulse e.feed .shed else serveCoil n (s.unqueue e.feed)
      | .restore => if s.restoreReady e.feed then s.beginPulse e.feed .restore else serveCoil n (s.failRestore e.feed)

/-- A feed joins the coil queue with the next entry number, once; an idle coil is served (R110). -/
def joinCoil (s : State) (f : Fin 12) (op : CoilOp) : State :=
  if s.queuedFor f = some op then s
  else
    let t := s.unqueue f
    let u := { t with coil := { t.coil with queue := t.coil.queue ++ [CoilEntry.mk f op t.coil.entries], entries := t.coil.entries + 1 } }
    if u.coilIdle then serveCoil 13 u else u

/-- The chain test of a feed in SHED_WAIT (R108): it joins the queue, or leaves it. -/
def testShed (s : State) (f : Fin 12) : State :=
  if s.feeds[f].state == .shedWait then if s.chainCondition f then s.joinCoil f .shed else s.unqueue f else s

/-- The restore test of a feed in SHED or RESTORE_WAIT (R112). DESIGN CHOICE: a feed stays in SHED until all four conditions hold, as R112's first sentence
has it; its last paragraph and section 7.11 speak of a feed that waits in RESTORE_WAIT for a higher one (log 40). -/
def testRestore (s : State) (f : Fin 12) : State :=
  match s.feeds[f].state with
  | .shed => if s.restoreReady f then (s.changeFeed f fun v => { v with state := .restoreWait }).joinCoil f .restore else s
  | .restoreWait => if s.restoreReady f then s.joinCoil f .restore else s.failRestore f
  | _ => s

/-- The feeds of a chain. -/
def chainFeeds (s : State) (c : Fin 4) : List (Fin 12) := (List.finRange 12).filter fun f => s.cfg.feeds[f].chain == c

/-- Make the chain tests of every feed of a chain that stands in SHED_WAIT (R108). -/
def testSheds (s : State) (c : Fin 4) : State := s.each (s.chainFeeds c) testShed

/-- Make the restore and chain tests of every feed of a chain (R108, R112). -/
def testChain (s : State) (c : Fin 4) : State := (s.each (s.chainFeeds c) testRestore).testSheds c

/-- The tests that a change in a chain calls for (R108, R112), made twice so that what the first round changes is tested too. -/
def settleChain (s : State) (c : Fin 4) : State := (s.testChain c).testChain c

/-- The tests in the chain of a feed. -/
def settleFeed (s : State) (f : Fin 12) : State := s.settleChain s.cfg.feeds[f].chain

/-- The OQU is told of a new shed of a live feed while a restore request stands (R119, R133); no rule clears the request of such a feed (log 48). -/
def tellShedAgain (s : State) (f : Fin 12) : State := s.emitIf s.feeds[f].request (.feedNews f .shedAgain)

/-! ### Judging a picture (R105 to R107) -/

/-- A pre-arm comes into force in place of a warning or a pull (R115). -/
def Feed.armed (v : Feed) (seconds : Nat) : Feed :=
  { v with state := .deferred, deferral := some seconds, preArm := none, deferralUsed := true }

/-- Entry to WARNED by whatever path (R106, R109, R115): a pre-arm makes it DEFERRED instead. FEED_WARNED is R106's alone. -/
def enterWarned (s : State) (f : Fin 12) (event : Bool) : State :=
  match s.feeds[f].preArm with
  | some n => s.changeFeed f fun v => Feed.armed v n
  | none =>
    let t := s.changeFeed f fun v => { v with state := .warned, clear := 0 }
    if event then t.raise .feedWarned f else t

/-- The chain pull (R107): every enabled lower-rank feed of the chain that is LIVE or WARNED gains AUTO_PREDICT and enters SHED_WAIT, or
DEFERRED on a pre-arm. -/
def pullChain (s : State) (f : Fin 12) : State :=
  s.each (List.finRange 12) fun t g =>
    if s.cfg.feeds[g].enable && s.cfg.feeds[g].chain == s.cfg.feeds[f].chain && decide (s.cfg.feeds[g].rank < s.cfg.feeds[f].rank) &&
        (t.feeds[g].state == .live || t.feeds[g].state == .warned) then
      match t.feeds[g].preArm with
      | some n => t.changeFeed g fun v => Feed.armed v n
      | none => (t.changeFeed g fun v => { v with state := .shedWait, demand := { v.demand with predict := true } }).tellShedAgain g
    else t

/-- AUTO_PREDICT is added and the chain pull made (R106, R107, R115). -/
def predictFeed (s : State) (f : Fin 12) : State :=
  ((s.changeFeed f fun v => { v with state := .shedWait, demand := { v.demand with predict := true } }).tellShedAgain f).pullChain f

/-- The hard trip (R105). DESIGN CHOICE: a RESTORE_WAIT feed that goes back to SHED keeps the shed cause it had; no rule gives one (log 65). -/
def hardTrip (s : State) (f : Fin 12) : State :=
  let t := (s.endDeferral f).changeFeed f fun v =>
    { v with
      demand := { v.demand with hard := true }, preArm := none
      state := match v.state with
        | .live | .warned | .deferred | .shedWait => .shedWait
        | .restoreWait => .shed
        | st => st }
  match s.feeds[f].state with
  | .live | .warned | .deferred => (t.tellShedAgain f).joinCoil f .shed
  | .shedWait => t.joinCoil f .shed
  | .restoreWait => (t.unqueue f).dropRequest f
  | _ => t

/-- Whether the hard trip acts on a feed at a level (R105): any state but SHED, SHEDDING and FAULT, and no AUTO_HARD yet. -/
def tripsHard (s : State) (f : Fin 12) (level : Nat) : Bool :=
  let v := s.feeds[f]
  decide (v.items.trip ≤ level) && !v.demand.hard && v.state != .shed && v.state != .shedding && v.state != .fault

/-- A feed in WARNED is judged (R106). DESIGN CHOICE: the fourth clear picture, which returns the feed to LIVE, leaves the clear count at 0 (log 57). -/
def judgeWarned (s : State) (f : Fin 12) : State :=
  if s.withinLead f then s.predictFeed f
  else if !s.withinWarning f then
    if s.feeds[f].clear + 1 ≥ 4 then
      (s.changeFeed f fun v => { v with state := .live, clear := 0 }).emit (.feedNews f .reachedLive)
    else s.setFeed f { s.feeds[f] with clear := s.feeds[f].clear + 1 }
  else s.setFeed f { s.feeds[f] with clear := 0 }

/-- A feed is judged by its state after the hard trip step (R106, R107, R112). -/
def judgeState (s : State) (f : Fin 12) : State :=
  match s.feeds[f].state with
  | .live =>
    if s.withinWarning f then
      let t := s.enterWarned f true
      if t.feeds[f].state == .warned then t.judgeWarned f else t
    else s
  | .warned => s.judgeWarned f
  | .shedWait => if s.feeds[f].demand.predict then s.pullChain f else s
  | .shed | .restoreWait => s.testRestore f
  | _ => s

/-- One feed at a picture with a level (R105); then the feeds of its chain that stand in SHED_WAIT are tested (R108), before the next feed is judged. -/
def judgeFeed (s : State) (f : Fin 12) (level : Nat) : State :=
  ((if s.tripsHard f level then s.hardTrip f else s).judgeState f).testSheds s.cfg.feeds[f].chain

/-- The enabled feeds of one sump and one chain, in descending rank (R105). -/
def feedsToJudge (s : State) (i : Fin 4) (c : Fin 4) : List (Fin 12) :=
  ((s.chainFeeds c).filter fun f => s.cfg.feeds[f].enable && s.feeds[f].items.sump == i).insertionSort
    fun f g => s.cfg.feeds[g].rank ≤ s.cfg.feeds[f].rank

/-- The SHS handles one chain of a published picture (R105); a picture without a level judges no feed. -/
def judgeChain (s : State) (i : Fin 4) (c : Fin 4) : State :=
  match s.levelOf i with
  | none => s
  | some l => (s.each (s.feedsToJudge i c) fun t f => t.judgeFeed f l).settleChain c

/-- A publication reaches the SHS (R105): its chains are handled one by one. -/
def pictureToShs (s : State) (i : Fin 4) : State := s.each (List.finRange 4) fun t c => t.emit (.shsChain i c)

/-! ### Toward live, faults -/

/-- A feed returns toward live (R109): it leaves the queue, and is DEFERRED, WARNED or LIVE. DESIGN CHOICE: a retry used stays used (log 55), and a restore
request stays as it stands (log 48). -/
def towardLive (s : State) (f : Fin 12) : State :=
  let t := s.unqueue f
  if s.feeds[f].deferral.isSome then t.changeFeed f fun v => { v with state := .deferred }
  else if s.withinWarning f then t.enterWarned f false
  else (t.changeFeed f fun v => { v with state := .live }).emit (.feedNews f .reachedLive)

/-- Entry to FAULT (R117), the steps in their order. -/
def faultFeed (s : State) (f : Fin 12) (kind : FaultKind) (detail : FaultDetail) : State :=
  let t := ((s.driverOff (shedCoilD f)).driverOff (restoreCoilD f)).unqueue f
  let u := { t with coil := { t.coil with check := match t.coil.check with
                                          | some w => if w.feed = f then none else some w
                                          | none => none } }
  ((((u.changeFeed f fun v => { v with state := .fault, preArm := none, retry := false, failure := some kind }).raise .feedFault f).report kind
    (.feed f) s.feeds[f].items.sump detail).emit (.feedNews f (.failed kind))).settleFeed f

/-- A driver fault report on a coil (R117) ends the pulse in progress of its feed; the recharge runs from then. -/
def feedDriverFault (s : State) (f : Fin 12) (d : Fin 44) (k : DriverFault) : State :=
  match s.coil.pulse with
  | some w =>
    if w.feed = f then
      { s with coil := { s.coil with pulse := none, recharge := some 800 } }.faultFeed f .driverFault (.driver d k)
    else s
  | none => s

/-! ### The coil's timers -/

/-- A pulse ends (R110): the coil OFF, the recharge timer and the check pending started. -/
def pulseEnds (s : State) : State :=
  match s.coil.pulse with
  | some w => { s with coil := { s.coil with pulse := none, recharge := some 800, check := some { w with left := 300 } } }.driverOff
      (coilD w.op w.feed)
  | none => s

/-- The recharge timer expires (R110): the queue is served. -/
def rechargeExpires (s : State) : State :=
  match s.coil.recharge with
  | some _ =>
    let t := { s with coil := { s.coil with recharge := none } }
    match t.firstEntry with
    | some _ =>
      let u := serveCoil 13 t
      u.each (List.finRange 4) settleChain
    | none => t
  | none => s

/-- Entry to SHED (R111, R116, R118): cause, FEED_SHED, and the notice to the OQU. DESIGN CHOICE: retry used is cleared also where a LIVE, WARNED or DEFERRED
feed in which it still stands is opened by hand; R116 names the clearing for SHED_WAIT alone (log 62). -/
def reachShed (s : State) (f : Fin 12) (cause : ShedCause) : State :=
  (((s.changeFeed f fun v => { v with state := .shed, cause := cause, retry := false }).raise .feedShed f).emit
    (.feedNews f .reachedShed)).settleFeed f

/-- The check of a shed pulse (R111). -/
def checkShed (s : State) (w : CoilWork) : State :=
  let f := w.feed
  let v := s.feeds[f]
  if !s.made (auxK f) then s.reachShed f w.cause
  else if v.demand.some then
    if v.retry then s.faultFeed f .feedbackMismatch (.operation .shed)
    else ((s.changeFeed f fun v => { v with state := .shedWait, retry := true }).joinCoil f .shed).settleFeed f
  else ((s.setFeed f { v with retry := false }).towardLive f).settleFeed f

/-- The check of a restore pulse (R111). -/
def checkRestore (s : State) (w : CoilWork) : State :=
  let f := w.feed
  let v := s.feeds[f]
  if !s.made (auxK f) then s.faultFeed f .feedbackMismatch (.operation .restore)
  else if v.demand.some then
    (((s.raise .feedLive f).dropRequest f).changeFeed f fun v => { v with state := .shedWait }).settleFeed f
  else
    (((s.changeFeed f fun v => { v with state := .live, request := false }).raise .feedLive f).emit (.feedNews f .reachedLive)).settleFeed f

/-- The check pending falls due (R111). -/
def checkDue (s : State) : State :=
  match s.coil.check with
  | some w =>
    let t := { s with coil := { s.coil with check := none } }
    match w.op with
    | .shed => t.checkShed w
    | .restore => t.checkRestore w
  | none => s

/-! ### Manual operation (R116) -/

/-- Whether a pulse or a check of the feed is under way. -/
def coilBusyWith (s : State) (f : Fin 12) : Bool :=
  (match s.coil.pulse with
    | some w => w.feed == f
    | none => false) ||
  (match s.coil.check with
    | some w => w.feed == f
    | none => false)

/-- Entry to LIVE from a contact found MADE (R116, R118); a set that is not empty then sends the feed to SHED_WAIT. -/
def reachLive (s : State) (f : Fin 12) (cause : ShedCause) : State :=
  let t := ((((s.unqueue f).changeFeed f fun v => { v with state := .live, request := false, cause := cause }).raise .feedLive f).emit
    (.feedNews f .reachedLive))
  (if t.feeds[f].demand.some then t.changeFeed f fun v => { v with state := .shedWait } else t).settleFeed f

/-- A change of an auxiliary contact (R116). -/
def auxChange (s : State) (f : Fin 12) (made : Bool) : State :=
  if s.coilBusyWith f then s
  else
    match s.feeds[f].state, made with
    | .live, false | .warned, false | .deferred, false => (s.changeFeed f fun v => { v with preArm := none }).reachShed f .manual
    | .shedWait, false => (s.unqueue f).reachShed f .manual
    | .shed, true | .restoreWait, true => s.reachLive f .manual
    | _, _ => s

/-! ### Orders at the SHS -/

/-- A port's FEED_SHED adds its demand (R109). DESIGN CHOICE: a RESTORE_WAIT feed that goes back to SHED keeps the shed cause it had (log 65). -/
def shedFeed (s : State) (f : Fin 12) (p : Port) : State :=
  let t := s.changeFeed f fun v =>
    { v with
      demand := v.demand.put p true
      state := match v.state with
        | .live | .warned | .deferred => .shedWait
        | .restoreWait => .shed
        | st => st }
  (match s.feeds[f].state with
    | .live | .warned | .deferred => t.tellShedAgain f
    | .shed => t.dropRequest f
    | .restoreWait => (t.unqueue f).dropRequest f
    | _ => t).settleFeed f

/-- A port's shed demand is removed (R109). -/
def unshedFeed (s : State) (f : Fin 12) (p : Port) : State :=
  let t := s.changeFeed f fun v => { v with demand := v.demand.put p false }
  (if t.feeds[f].demand != s.feeds[f].demand && !t.feeds[f].demand.some && t.feeds[f].state == .shedWait then t.towardLive f else t).settleFeed f

/-- The SHS's answers to a FEED_RESTORE (R113). -/
inductive RestoreAnswer where
  | conditionsFail | held | live | fault | pending | done
deriving DecidableEq, Repr

/-- The release conditions (R113). -/
def releaseHolds (s : State) (f : Fin 12) : Bool := s.belowBand f && !s.withinWarning f

/-- Port A's FEED_RESTORE (R113). DESIGN CHOICES: a SHED_WAIT feed whose set loses PORT_A as its last member while the release conditions fail stays in
SHED_WAIT with an empty set (log 53); on a RESTORING feed whose request an ABORT has cleared the request stays clear (log 54). -/
def restoreByA (s : State) (f : Fin 12) : State × RestoreAnswer :=
  let v := s.feeds[f]
  if !s.releaseHolds f then
    ((s.changeFeed f fun v => { v with demand := v.demand.put .a false, request := false }).settleFeed f, .conditionsFail)
  else
    let d : ShedSet := { b := v.demand.b }
    match v.state with
    | .shed | .shedding =>
      ((s.changeFeed f fun v => { v with demand := d, request := true }).settleFeed f, if d.b then .held else .pending)
    | .restoreWait | .restoring => ((s.changeFeed f fun v => { v with demand := d }).settleFeed f, .pending)
    | .shedWait =>
      if d.b then ((s.changeFeed f fun v => { v with demand := d, request := true }).settleFeed f, .held)
      else (((s.changeFeed f fun v => { v with demand := d, request := false }).towardLive f).settleFeed f, .live)
    | .live | .warned | .deferred => ((s.changeFeed f fun v => { v with demand := d }).settleFeed f, .live)
    | .fault => ((s.changeFeed f fun v => { v with demand := d, request := true }).settleFeed f, .fault)

/-- Port B's FEED_RESTORE (R113). -/
def restoreByB (s : State) (f : Fin 12) : State × RestoreAnswer :=
  let d := s.feeds[f].demand.put .b false
  (s.unshedFeed f .b, if d.some then .held else .done)

/-- The ABORT of Port A's restore order, or of its shed order, clears the restore request (R113, R137). -/
def clearRequest (s : State) (f : Fin 12) : State := (s.setFeed f { s.feeds[f] with request := false }).settleFeed f

/-- The SHS's answers to a FEED_DEFER (R114). -/
inductive DeferAnswer where
  | tooLate | overridden
  | granted (seconds : Nat)
  | preArmed (seconds : Nat)
deriving DecidableEq, Repr

/-- The seconds granted (R114): clamped to 1..max deferral. -/
def grantedSeconds (s : State) (f : Fin 12) (seconds : Nat) : Nat := max 1 (min seconds s.cfg.feeds[f].maxDeferral)

/-- Port A's FEED_DEFER (R114), the first row that holds. -/
def deferFeed (s : State) (f : Fin 12) (seconds : Nat) : State × DeferAnswer :=
  let v := s.feeds[f]
  let n := s.grantedSeconds f seconds
  if v.state == .shedding || v.state == .shed || v.state == .restoreWait || v.state == .restoring || v.demand.hard then (s, .tooLate)
  else if !s.cfg.feeds[f].deferrable || s.cfg.feeds[f].maxDeferral == 0 || v.state == .fault then (s, .overridden)
  else if v.state == .deferred || (v.episode && v.deferralUsed) then (s, .overridden)
  else
    match v.state with
    | .warned =>
      ((s.changeFeed f fun v => { v with state := .deferred, deferral := some n, deferralUsed := true }).settleFeed f, .granted n)
    | .shedWait =>
      if v.demand.predict then
        let d := { v.demand with predict := false }
        let t := if d.some then s else s.unqueue f
        ((t.changeFeed f fun v =>
          { v with
            demand := d, deferral := some n, deferralUsed := true
            state := if d.some then .shedWait else .deferred }).settleFeed f, .granted n)
      else (s, .overridden)
    | .live => (s.setFeed f { v with preArm := some n }, .preArmed n)
    | _ => (s, .overridden)

/-! ### Deferrals -/

/-- A deferral in force reaches its expiry, or Port A's link is reset (R115). -/
def deferralExpires (s : State) (f : Fin 12) : State :=
  if s.feeds[f].deferral.isSome then
    let t := s.endDeferral f
    let deferred := s.feeds[f].state == .deferred
    (if s.withinLead f then
      let u := t.changeFeed f fun v =>
        { v with
          demand := { v.demand with predict := true }
          state := if deferred then .shedWait else v.state }
      (if deferred then u.tellShedAgain f else u).pullChain f
     else if deferred then t.enterWarned f false
     else t).settleFeed f
  else s

/-- A pre-arm reaches its expiry (R115): removed without an event. -/
def preArmExpires (s : State) (f : Fin 12) : State := s.setFeed f { s.feeds[f] with preArm := none }

/-- A port link reset of Port A ends every deferral and pre-arm (R115, R139). DESIGN CHOICE: the pre-arms go first, and the deferrals end in ascending feed
index (log 17). -/
def linkResetFeeds (s : State) : State :=
  (s.each (List.finRange 12) preArmExpires).each (List.finRange 12) deferralExpires

/-! ### CLEAR_FAILURE, enable and reset -/

/-- CLEAR_FAILURE naming a feed in FAULT (R118). -/
def clearFeed (s : State) (f : Fin 12) : State :=
  let t := ((s.driverClear (shedCoilD f)).driverClear (restoreCoilD f))
  let u := t.setFeed f { t.feeds[f] with failure := none }
  let v := s.feeds[f]
  if s.made (auxK f) then
    if v.demand.some then (u.changeFeed f fun v => { v with state := .shedWait }).settleFeed f else u.reachLive f v.cause
  else u.reachShed f v.demand.causeFound

/-- The disable of a feed (R120), its enable having just become no. -/
def disableFeed (s : State) (f : Fin 12) : State :=
  let t := (s.endDeferral f).unqueue f
  ((t.changeFeed f fun v =>
    { v with
      demand := {}, request := false, preArm := none, episode := false
      state := if v.state = .fault then .fault else if s.made (auxK f) then .live else .shed }).emit (.feedNews f .disabled)).settleFeed f

/-- The state a feed takes from its contact at reset (R121). -/
def feedFromContact (s : State) (f : Fin 12) : State :=
  s.changeFeed f fun v => { v with state := if s.made (auxK f) then .live else .shed, cause := .atStart }

/-- The enable of a feed (R120), its enable having just become yes: from its contact, with no place in the coil queue. -/
def enableFeed (s : State) (f : Fin 12) : State :=
  (if s.feeds[f].state == .fault then s else (s.unqueue f).feedFromContact f).settleFeed f

end State

end Sys2Proof.Machine
end

