-- ==== Sys2Proof/Machine/Barriers.lean ====
section
/-! DEFINITION. The Barrier Controller (chapter 6, sections 6.1 to 6.8, 6.10, 6.11): wants, travel, sealing, contacts at rest, homing, faults and lockout. -/

namespace Sys2Proof.Machine

/-- A travel want (R84). -/
inductive Want where
  | close | home | open_ | none
deriving DecidableEq, Repr

/-- The overtravel of a closed count (R86): an eighth, rounded up. -/
def overtravel (closedCount : Nat) : Nat := (closedCount + 7) / 8

/-- The home limit (R86). -/
def homeLimit (closedCount : Nat) : Nat := closedCount + overtravel closedCount

/-- The travel states (section 6.1). -/
def BarrierState.travels : BarrierState → Bool
  | .closing | .opening | .homing => true
  | _ => false

/-- The rest states (section 6.1). -/
def BarrierState.rests : BarrierState → Bool
  | .unhomed | .openEnd | .stopped | .closedUnsealed | .sealed => true
  | _ => false

namespace Barrier

/-- The acting closure set (R83). -/
def acting (b : Barrier) : DemandSet := if b.locked then b.closure.onlyC else b.closure

/-- Whether the release target is OPEN and acts (R84): one that stood at a LOCKOUT does not act while the lockout lasts (R95, R96, log 47). -/
def releases (b : Barrier) : Bool := b.release == .openEnd && !b.releaseHeld

/-- The want that the sets, the release target and a given state have (R84); a disabled barrier has none. -/
def wantIn (enabled : Bool) (b : Barrier) (st : BarrierState) : Want :=
  if !enabled then .none
  else if b.acting.some then
    match st with
    | .unhomed | .openEnd | .stopped | .locked => .close
    | _ => .none
  else if b.home.some && (st == .unhomed || st == .stopped || st == .openEnd || st == .locked) then .home
  else if b.releases &&
      (st == .stopped || st == .closedUnsealed || st == .sealed || (st == .locked && b.position.isSome)) then .open_
  else .none

/-- The want of R84. -/
def want (enabled : Bool) (b : Barrier) : Want := b.wantIn enabled b.state

/-- The rest state a travelling barrier would enter if it stopped where it is (R87). -/
def stopState (b : Barrier) : BarrierState := if b.position.isSome then .stopped else .unhomed

/-- The want with a travel state taken as the rest state it would stop in (R87). -/
def turnWant (enabled : Bool) (b : Barrier) : Want := b.wantIn enabled (if b.state.travels then b.stopState else b.state)

/-- The kind with which a barrier at rest or in LOCKED waits for a drive slot (R84). -/
def waits (enabled : Bool) (b : Barrier) : Option DriveKind :=
  if b.state.rests || b.state == .locked then
    match b.want enabled with
    | .close => some .close
    | .home | .open_ => some .open_
    | .none => none
  else none

end Barrier

/-- What a barrier's neighbours have been told of it: how it waits for a slot, and its want. -/
structure Told where
  waits : Option DriveKind
  want : Want
deriving DecidableEq, Repr

namespace State

/-- What stands told of a barrier before a change. -/
def told (s : State) (b : Fin 6) : Told :=
  ⟨s.barriers[b].waits s.cfg.barriers[b].enable, s.barriers[b].turnWant s.cfg.barriers[b].enable⟩

/-- Change one barrier record without taking its wants. -/
def modBarrier (s : State) (b : Fin 6) (f : Barrier → Barrier) : State := s.setBarrier b (f s.barriers[b])

/-- Both drive outputs OFF. -/
def drivesOff (s : State) (b : Fin 6) : State := (s.driverOff (driveCloseD b)).driverOff (driveOpenD b)

/-- Entry to CLOSED_UNSEALED at the closed end, with the seal check of R89. -/
def enterClosed (s : State) (b : Fin 6) : State :=
  let c := s.cfg.barriers[b]
  let t := (s.modBarrier b fun r =>
    { r with state := .closedUnsealed, position := some c.closedCount, sealTimer := none }).emit (.barrierNews b .closedUnsealed)
  if s.made (sealK b) then (t.modBarrier b fun r => { r with state := .sealed }).emit (.barrierNews b .sealed)
  else t.modBarrier b fun r => { r with sealTimer := some (c.sealTime * 1000) }

/-- Entry to OPEN at the open end: position 0 and an empty home set (R83, R88). -/
def enterOpen (s : State) (b : Fin 6) : State :=
  (s.modBarrier b fun r => { r with state := .openEnd, position := some 0, home := {}, sealTimer := none }).emit (.barrierNews b .reachedOpen)

/-- R83: a non-empty acting set empties the home set of a barrier that is not HOMING, and the homing is disturbed. -/
def disturbHome (s : State) (b : Fin 6) : State :=
  let r := s.barriers[b]
  if r.acting.some && r.home.some && r.state != .homing then
    (s.setBarrier b { r with home := {} }).emit (.barrierNews b .homingDisturbed)
  else s

/-- R84: a LOCKED barrier whose want is toward a limit that stands MADE does not wait for a slot. -/
def lockedAtLimit (s : State) (b : Fin 6) : State :=
  let r := s.barriers[b]
  if r.state == .locked then
    match r.want s.cfg.barriers[b].enable with
    | .close => if s.made (closedLimitK b) then s.enterClosed b else s
    | .home | .open_ => if s.made (openLimitK b) then s.enterOpen b else s
    | .none => s
  else s

/-- What the BRC tells the DAR when a barrier's wait has changed (R84). -/
def tellDar (s : State) (b : Fin 6) (was : Option DriveKind) : State :=
  match was, s.barriers[b].waits s.cfg.barriers[b].enable with
  | _, some k => s.emitIf (was != some k) (.darWants b k)
  | some _, none => s.emit (.darNoWant b)
  | none, none => s

/-- What the BRC tells the OQU when a want for open is lost (R126), other than on entry to OPEN or FAULT. -/
def tellWantLost (s : State) (b : Fin 6) (was : Want) : State :=
  let r := s.barriers[b]
  let now := r.turnWant s.cfg.barriers[b].enable
  s.emitIf ((was == .open_ || was == .home) && (now == .close || now == .none) && r.state != .openEnd && r.state != .fault)
    (.barrierNews b .wantLost)

/-- The BRC takes a barrier's wants anew after a change (R83, R84), `t` being what stood told before it. -/
def takeWants (s : State) (b : Fin 6) (t : Told) : State :=
  (((s.disturbHome b).lockedAtLimit b).tellDar b t.waits).tellWantLost b t.want

/-- A change of a barrier record followed by its wants. -/
def updateBarrier (s : State) (b : Fin 6) (f : Barrier → Barrier) : State := (s.modBarrier b f).takeWants b (s.told b)

/-- Add or remove a port's closure demand (R83). -/
def portDemandBarrier (s : State) (b : Fin 6) (p : Port) (v : Bool) : State :=
  s.updateBarrier b fun r => { r with closure := r.closure.put p v }

/-- Set or clear AUTO in a closure demand set (R45, R46). -/
def autoDemandBarrier (s : State) (b : Fin 6) (v : Bool) : State :=
  s.updateBarrier b fun r => { r with closure := { r.closure with auto := v } }

/-! ### Faults -/

/-- BARRIER_FAULT and the fault report of R93. -/
def reportBarrier (s : State) (b : Fin 6) (kind : FaultKind) (detail : FaultDetail) : State :=
  (s.raise .barrierFault b).report kind (.barrier b) s.cfg.barriers[b].sump detail

/-- The detail of a fault that is no driver fault (R93, section 9.7): position, travel state or none, and travel count. -/
def travelDetail (r : Barrier) (position : Option Nat) : FaultDetail :=
  .travel position (if r.state.travels then some r.state else none) (some r.travel)

/-- Entry to FAULT (R93), the steps in their order. -/
def faultBarrier (s : State) (b : Fin 6) (kind : FaultKind) (detail : FaultDetail) : State :=
  let r := s.barriers[b]
  let pos := if kind = .barrierNoLimit then none else r.position
  let t := (s.drivesOff b).setBarrier b
    { r with state := .fault, position := pos, increment := none, sealTimer := none, home := {}, failure := some kind }
  let u := if r.state.travels then t.emit (.darFreed b) else t.tellDar b (s.told b).waits
  (u.reportBarrier b kind detail).emit (.barrierNews b (.faulted kind))

/-- Both limits MADE (R90, R94, R97, R103): FAULT with BARRIER_NO_LIMIT, detail BOTH_LIMITS. -/
def faultBothLimits (s : State) (b : Fin 6) : State := s.faultBarrier b .barrierNoLimit (.travel none none none)

/-! ### Travel -/

/-- A granted barrier starts its travel (R85): a drive output ON, travel count 0, the increment timer started. -/
def startTravel (s : State) (b : Fin 6) (st : BarrierState) : State :=
  let t := ((s.modBarrier b fun r =>
    { r with state := st, travel := 0, sealTimer := none, increment := some s.cfg.barriers[b].interval }).tellDar b (s.told b).waits).emit
    (.darTaken b)
  let u := t.driverOn (if st = .closing then driveCloseD b else driveOpenD b)
  if s.made (driveOverloadK b) then u.faultBarrier b .barrierOverload (travelDetail u.barriers[b] u.barriers[b].position) else u

/-- A grant from the DAR reaches a barrier (R85). -/
def grantBarrier (s : State) (b : Fin 6) : State :=
  match s.barriers[b].want s.cfg.barriers[b].enable with
  | .close => s.startTravel b .closing
  | .home => s.startTravel b .homing
  | .open_ => s.startTravel b .opening
  | .none => s.emit (.darHandedBack b)

/-- The next increment of the travel, in the same or, between OPENING and HOMING, the other opening state (R86, R87). -/
def nextIncrement (s : State) (b : Fin 6) (st : BarrierState) : State :=
  s.modBarrier b fun r => { r with state := st, increment := some s.cfg.barriers[b].interval }

/-- A turn (R87): the other drive output ON, travel count 0, the increment timer started again, the slot kept. -/
def turnBarrier (s : State) (b : Fin 6) (st : BarrierState) : State :=
  (s.modBarrier b fun r => { r with state := st, travel := 0, increment := some s.cfg.barriers[b].interval }).driverOn
    (if st = .closing then driveCloseD b else driveOpenD b)

/-- A turn of an opening or homing travel to CLOSING, and what the OQU is told of it (R87, R126). -/
def turnToClosing (s : State) (b : Fin 6) : State :=
  let r := s.barriers[b]
  let t := s.turnBarrier b .closing
  if r.state == .homing then
    (t.modBarrier b fun q => { q with home := {} }).emit (.barrierNews b .homingDisturbed)
  else t.emit (.barrierNews b .turned)

/-- A halt (R87): both outputs OFF, the slot freed, STOPPED or UNHOMED. -/
def haltBarrier (s : State) (b : Fin 6) : State :=
  let r := s.barriers[b]
  let t := ((s.drivesOff b).setBarrier b { r with state := r.stopState, increment := none }).emit (.darFreed b)
  t.emitIf (r.state == .opening) (.barrierNews b .halted)

/-- The end of an increment that does not fault (R87). -/
def turnOrHalt (s : State) (b : Fin 6) : State :=
  let r := s.barriers[b]
  match r.state, r.turnWant s.cfg.barriers[b].enable with
  | .closing, .close => s.nextIncrement b .closing
  | .closing, .home => s.turnBarrier b .homing
  | .closing, .open_ => s.turnBarrier b .opening
  | .opening, .home => s.nextIncrement b .homing
  | .opening, .open_ => s.nextIncrement b .opening
  | .homing, .home => s.nextIncrement b .homing
  | .homing, .open_ => s.nextIncrement b .homing
  | .opening, .close => s.turnToClosing b
  | .homing, .close => s.turnToClosing b
  | _, .none => s.haltBarrier b
  | _, _ => s

/-- The position after one more increment (R86). -/
def Barrier.stepped (r : Barrier) (closedCount : Nat) : Option Nat :=
  r.position.map fun p => if r.state = .closing then min (p + 1) closedCount else p - 1

/-- The increment timer expires (R86). -/
def incrementExpires (s : State) (b : Fin 6) : State :=
  let r := s.barriers[b]
  let n := s.cfg.barriers[b].closedCount
  if r.state.travels && r.increment.isSome then
    let t := s.setBarrier b { r with position := Barrier.stepped r n, travel := r.travel + 1 }
    if homeLimit n ≤ r.travel + 1 then t.faultBarrier b .barrierNoLimit (travelDetail t.barriers[b] none)
    else (t.turnOrHalt b).takeWants b (s.told b)
  else s

/-- The closed limit ends a closing (R88). -/
def arriveClosed (s : State) (b : Fin 6) : State :=
  ((((s.driverOff (driveCloseD b)).modBarrier b fun r => { r with increment := none }).emit (.darFreed b)).enterClosed b).takeWants b (s.told b)

/-- The open limit ends an opening or a homing (R88), unless the want is CLOSE: then the travel turns at once, with position 0. -/
def arriveOpen (s : State) (b : Fin 6) : State :=
  let r := s.barriers[b]
  if { r with position := some 0 }.turnWant s.cfg.barriers[b].enable = .close then
    ((s.setBarrier b { r with position := some 0 }).turnToClosing b).takeWants b (s.told b)
  else
    ((((s.driverOff (driveOpenD b)).modBarrier b fun r => { r with increment := none }).emit (.darFreed b)).enterOpen b).takeWants b (s.told b)

/-- A change of the open limit (R88, R90). -/
def openLimitChange (s : State) (b : Fin 6) (made : Bool) : State :=
  let r := s.barriers[b]
  match r.state with
  | .opening | .homing => if made then s.arriveOpen b else s
  | .closing | .fault => s
  | .locked => s.updateBarrier b fun r => { r with position := none }
  | st =>
    if made then
      if s.made (closedLimitK b) then s.faultBothLimits b
      else if st == .unhomed || st == .stopped then (s.enterOpen b).takeWants b (s.told b) else s
    else if st == .openEnd then s.updateBarrier b fun r => { r with state := .stopped, position := some 0 } else s

/-- A change of the closed limit (R88, R90). -/
def closedLimitChange (s : State) (b : Fin 6) (made : Bool) : State :=
  let r := s.barriers[b]
  match r.state with
  | .closing => if made then s.arriveClosed b else s
  | .opening | .homing | .fault => s
  | .locked => s.updateBarrier b fun r => { r with position := none }
  | st =>
    if made then
      if s.made (openLimitK b) then s.faultBothLimits b
      else if st == .unhomed || st == .stopped then (s.enterClosed b).takeWants b (s.told b) else s
    else if st == .closedUnsealed || st == .sealed then
      s.updateBarrier b fun r => { r with state := .stopped, position := some s.cfg.barriers[b].closedCount, sealTimer := none }
    else s

/-- A change of the seal contact (R89). -/
def sealChange (s : State) (b : Fin 6) (made : Bool) : State :=
  match s.barriers[b].state, made with
  | .closedUnsealed, true =>
    (s.updateBarrier b fun r => { r with state := .sealed, sealTimer := none }).emit (.barrierNews b .sealed)
  | .sealed, false =>
    ((s.updateBarrier b fun r => { r with state := .closedUnsealed }).raise .sealLost b).emit (.barrierNews b .closedUnsealed)
  | _, _ => s

/-- The seal timer expires (R89). DESIGN CHOICE: the detail is the seal time as configured at the expiry, also when the item was changed while the timer
ran (log 49). -/
def sealExpires (s : State) (b : Fin 6) : State :=
  let r := s.barriers[b]
  if r.state == .closedUnsealed && r.sealTimer.isSome then
    ((s.setBarrier b { r with sealTimer := none }).reportBarrier b .sealFail (.sealTime s.cfg.barriers[b].sealTime)).emit
      (.barrierNews b .sealFailed)
  else s

/-- A change of the drive overload contact (R92). -/
def driveOverload (s : State) (b : Fin 6) (made : Bool) : State :=
  let r := s.barriers[b]
  if made && s.cfg.barriers[b].enable && (r.state.travels || r.state.rests) then
    s.faultBarrier b .barrierOverload (travelDetail r r.position)
  else s

/-- A driver fault report on a drive output reaches a travelling barrier (R92). -/
def barrierDriverFault (s : State) (b : Fin 6) (d : Fin 44) (k : DriverFault) : State :=
  if s.barriers[b].state.travels then s.faultBarrier b .driverFault (.driver d k) else s

/-! ### States taken from the contacts -/

/-- R97's table for LOCKED, which a disable uses too (R102): the state by the limits, neither made leaving STOPPED or UNHOMED. -/
def stateFromLimits (s : State) (b : Fin 6) : State :=
  match s.made (openLimitK b), s.made (closedLimitK b) with
  | true, true => s.faultBothLimits b
  | true, false => s.enterOpen b
  | false, true => s.enterClosed b
  | false, false => s.modBarrier b fun r => { r with state := r.stopState }

/-- The position that R94's and R103's tables name for the contacts. -/
def positionFromLimits (s : State) (b : Fin 6) : Option Nat :=
  match s.made (openLimitK b), s.made (closedLimitK b) with
  | true, false => some 0
  | false, true => some s.cfg.barriers[b].closedCount
  | _, _ => none

/-- R103: the state at reset, which an enable takes too (R102): from the contacts, or LOCKED with the position they name; then the overload
of an enabled barrier that is not locked. DESIGN CHOICE: with both limits and the overload MADE the fault is BARRIER_NO_LIMIT alone (log 51). -/
def barrierFromContacts (s : State) (b : Fin 6) : State :=
  let r := s.barriers[b]
  if r.locked then s.modBarrier b fun r => { r with state := .locked, position := s.positionFromLimits b }
  else
    let t := (s.modBarrier b fun r => { r with position := none }).stateFromLimits b
    if t.barriers[b].state != .fault && s.cfg.barriers[b].enable && s.made (driveOverloadK b) then
      t.faultBarrier b .barrierOverload (travelDetail t.barriers[b] t.barriers[b].position)
    else t

/-- CLEAR_FAILURE naming a barrier in FAULT (R94). DESIGN CHOICE: a barrier that stays in FAULT because both limits are MADE keeps the position it
has (log 50). -/
def clearBarrier (s : State) (b : Fin 6) : State :=
  let t := (s.driverClear (driveCloseD b)).driverClear (driveOpenD b)
  let r := s.barriers[b]
  if s.made (driveOverloadK b) then
    (t.setBarrier b { r with failure := some .barrierOverload }).reportBarrier b .barrierOverload (travelDetail r r.position)
  else if s.made (openLimitK b) && s.made (closedLimitK b) then
    (t.setBarrier b { r with failure := some .barrierNoLimit }).reportBarrier b .barrierNoLimit (.travel none none none)
  else
    let u := t.setBarrier b { r with failure := none, position := none }
    (if r.locked then u.modBarrier b fun q => { q with state := .locked, position := s.positionFromLimits b }
     else u.stateFromLimits b).takeWants b (s.told b)

/-- LOCKOUT of a barrier that is not locked (R95). Its release target is held: a barrier that waited at the DAR is withdrawn and wants no slot. -/
def lockBarrier (s : State) (b : Fin 6) : State :=
  let r := s.barriers[b]
  let q := { r with locked := true, releaseHeld := true, home := {} }
  let t :=
    if r.state.travels then
      ((s.drivesOff b).setBarrier b { q with state := .locked, position := none, increment := none }).emit (.darFreed b)
    else if r.state.rests then s.setBarrier b { q with state := .locked, sealTimer := none }
    else s.setBarrier b q
  (t.takeWants b (s.told b)).emit (.barrierNews b .locked)

/-- UNLOCK of a locked barrier (R97). A release target that the LOCKOUT found acts again (log 47). -/
def unlockBarrier (s : State) (b : Fin 6) : State :=
  let t := (s.modBarrier b fun r => { r with locked := false, releaseHeld := false, closure := { r.closure with c := false } }).emit (.barrierNews b .unlocked)
  (if s.barriers[b].state == .locked then t.stateFromLimits b else t).takeWants b (s.told b)

/-- The disable of a barrier (R102), its enable having just become no; `t` is what stood told before. The OQU is told before the state is taken
from the limits. -/
def disableBarrier (s : State) (b : Fin 6) (t : Told) : State :=
  let r := s.barriers[b]
  let q := { r with
    increment := none, sealTimer := none, closure := {}, home := {}, release := .halt
    state := if r.state.travels then .unhomed else r.state
    position := if r.state.travels then none else r.position }
  let u := (((s.drivesOff b).setBarrier b q).emitIf r.state.travels (.darFreed b)).emit (.barrierNews b .disabled)
  let v :=
    if r.state == .fault then u
    else if r.locked then u.modBarrier b fun q => { q with state := .locked }
    else u.stateFromLimits b
  v.takeWants b t

/-- The enable of a barrier (R102), its enable having just become yes. -/
def enableBarrier (s : State) (b : Fin 6) : State :=
  let t := s.modBarrier b fun r => { r with closure := {}, release := .halt, sealTimer := none }
  (if s.barriers[b].state == .fault then t else t.barrierFromContacts b).takeWants b ⟨none, .none⟩

/-- A new closed count or travel interval (R102): the position follows the state. -/
def recountBarrier (s : State) (b : Fin 6) : State :=
  let n := s.cfg.barriers[b].closedCount
  s.updateBarrier b fun r =>
    match r.state with
    | .stopped => { r with state := .unhomed, position := none }
    | .closedUnsealed | .sealed => { r with position := some n }
    | .locked | .fault => { r with position := if r.position = some 0 then some 0 else none }
    | _ => r

/-! ### Orders at the BRC -/

/-- Set the release target (R83). -/
def setRelease (s : State) (b : Fin 6) (v : Release) : State := s.updateBarrier b fun r => { r with release := v }

/-- Add or remove a port in the home set (R83, R91). -/
def setHome (s : State) (b : Fin 6) (p : Port) (v : Bool) : State := s.updateBarrier b fun r => { r with home := r.home.put p v }

end State

end Sys2Proof.Machine
end

