-- ==== Sys2Proof/Machine/Pumps.lean ====
section
/-! DEFINITION. The Pump Controller (chapter 4): acting demand sets, pending pumps, the six states and what moves a pump between them.
The Supply Arbiter, the Protection Evaluator, the Order Queue Unit and the Fault Capture get their notices by `emit` (R65). -/

namespace Sys2Proof.Machine

/-- The acting demand set (R52): the whole set, or PORT_C alone while the locked flag is set. -/
def Pump.acting (p : Pump) : DemandSet := if p.locked then p.demand.onlyC else p.demand

/-- Whether the acting set holds AUTO with the override flag (R53). -/
def Pump.overriding (p : Pump) : Bool := p.acting.auto && p.override

/-- R53: a pump of the given enable in OFF or LOCKED, wanted, and with budget left or the override. -/
def Pump.pending (enabled : Bool) (p : Pump) : Bool :=
  enabled && (p.state == .off || p.state == .locked) && p.acting.some && (decide (0 < p.budget) || p.overriding)

/-- All four pump timers stopped (R61, R66, R69). -/
def Pump.stopTimers (p : Pump) : Pump := { p with proving := none, minRun := none, noFlow := none, minOff := none }

/-- Whether a pump stands on the supply, holding a start slot (R73). -/
def Pump.onSupply (p : Pump) : Bool := p.state == .starting || p.state == .running

namespace State

/-- Whether a pump is pending (R53), as its record and its enable stand. -/
def pumpPending (s : State) (m : Fin 8) : Bool := s.pumps[m].pending s.cfg.pumps[m].enable

/-- What the PMC tells the Supply Arbiter after a change (R53): the pump became pending, ceased to be, or is pending with another acting set. `was` and `old`
are its pending status and acting set before the change. -/
def tellSar (s : State) (m : Fin 8) (was : Bool) (old : DemandSet) : State :=
  let p := s.pumps[m]
  if s.pumpPending m then
    if was then s.emitIf (p.acting != old) (.sarActing m p.acting) else s.emit (.sarPending m p.acting)
  else s.emitIf was (.sarNotPending m)

/-- Write a pump record and tell the Supply Arbiter what that changes (R53, R74). -/
def updatePump (s : State) (m : Fin 8) (p : Pump) : State :=
  (s.setPump m p).tellSar m (s.pumpPending m) s.pumps[m].acting

/-- The notices of leaving the supply (R65): slot freed, then for a RUNNING pump the departure to the Protection Evaluator and the
Order Queue Unit. `was` is the state left. -/
def leaveSupply (s : State) (m : Fin 8) (was : PumpState) : State :=
  let t := s.emitIf (was == .starting || was == .running) (.sarFreed m)
  if was == .running then (t.emit (.pumpLeft m s.cfg.pumps[m].sump)).emit (.pumpNews m .leftRunning) else t

/-- Entry to REST from RUNNING (R56). -/
def restPump (s : State) (m : Fin 8) : State :=
  let p := s.pumps[m]
  ((s.driverOff (runD m)).updatePump m
    { p with state := .rest, minRun := none, noFlow := none, minOff := some (s.cfg.pumps[m].minOff * 1000) }).leaveSupply m p.state

/-- The PMC acts on the acting set as it stands (R52): a RUNNING pump past its min run with an empty acting set rests (R56). -/
def actOnDemand (s : State) (m : Fin 8) : State :=
  let p := s.pumps[m]
  if p.state == .running && p.minRunElapsed && !p.acting.some then s.restPump m else s

/-- A change of a pump's demand set, and what the PMC does on it (R52). -/
def demandPump (s : State) (m : Fin 8) (d : DemandSet) (ov : Bool) : State :=
  (s.updatePump m { s.pumps[m] with demand := d, override := ov && d.auto }).actOnDemand m

/-- Add or remove a port's demand (R52). -/
def portDemandPump (s : State) (m : Fin 8) (p : Port) (v : Bool) : State :=
  s.demandPump m (s.pumps[m].demand.put p v) s.pumps[m].override

/-- Place AUTO, with the override flag when `ov`; a flag that stands is kept (R39, R41). -/
def placeAuto (s : State) (m : Fin 8) (ov : Bool) : State :=
  s.demandPump m { s.pumps[m].demand with auto := true } (s.pumps[m].override || ov)

/-- Remove AUTO and with it the override flag (R42, R44, R159). -/
def removeAuto (s : State) (m : Fin 8) : State := s.demandPump m { s.pumps[m].demand with auto := false } false

/-- Clear the override flag from a standing AUTO (R41). -/
def clearOverride (s : State) (m : Fin 8) : State := s.demandPump m s.pumps[m].demand false

/-- Entry to FAILED (R61), the steps in their order; `st` is the state left. -/
def failPump (s : State) (m : Fin 8) (kind : FaultKind) (detail : FaultDetail) : State :=
  let p := s.pumps[m]
  (((((s.driverOff (runD m)).updatePump m { p.stopTimers with state := .failed, failure := some kind }).leaveSupply m p.state).raise
    .pumpFailed m).report kind (.pump m) s.cfg.pumps[m].sump detail).emit (.pumpNews m (.failed kind))

/-- The start budget at a grant (R63): one less, with PUMP_BUDGET_OUT when none is left; or an override start, which leaves it at 0, raises
the event and reports BUDGET_OVERRIDE. -/
def takeBudget (s : State) (m : Fin 8) : State :=
  let p := s.pumps[m]
  if 0 < p.budget then
    let t := s.setPump m { p with budget := p.budget - 1 }
    if p.budget = 1 then t.raise .pumpBudgetOut m else t
  else (s.raise .pumpBudgetOut m).report .budgetOverride (.pump m) s.cfg.pumps[m].sump (.starts s.cfg.pumps[m].starts)

/-- A pending pump takes its grant (R54): budget, run output ON, proving timer, STARTING; an overload that stands MADE fails it at once. -/
def startPump (s : State) (m : Fin 8) : State :=
  let was := s.pumpPending m
  let t := s.takeBudget m
  let u := (t.setPump m { t.pumps[m] with state := .starting, proving := some (s.cfg.pumps[m].proving * 1000), flowAtGrant := s.made (flowK m) }).tellSar
    m was s.pumps[m].acting
  let v := ((u.driverOn (runD m)).emit (.sarTaken m)).emit (.pumpNews m .granted)
  if s.made (overloadK m) then v.failPump m .pumpOverload (.pumpState .starting) else v

/-- A grant reaches a pump (R54): taken while it is pending, handed back otherwise. -/
def grantPump (s : State) (m : Fin 8) : State :=
  if s.pumpPending m then s.startPump m else s.emit (.sarHandedBack m)

/-- A change of the flow switch (R55, R57): proof of a STARTING pump; start or stop of the no-flow timer of a RUNNING one. -/
def pumpFlow (s : State) (m : Fin 8) (made : Bool) : State :=
  let p := s.pumps[m]
  match p.state, made with
  | .starting, true =>
    (s.updatePump m { p with
        state := .running, proving := none, minRun := some (s.cfg.pumps[m].minRun * 1000), minRunElapsed := false
        runningSince := s.timeMs }).emit (.pumpNews m .running)
  | .running, true => s.setPump m { p with noFlow := none }
  | .running, false => s.setPump m { p with noFlow := some 5000 }
  | _, _ => s

/-- A change of the overload contact (R59): to MADE, it fails an enabled pump in OFF, STARTING, RUNNING or REST. -/
def pumpOverload (s : State) (m : Fin 8) (made : Bool) : State :=
  let st := s.pumps[m].state
  if made && s.cfg.pumps[m].enable && (st == .off || st == .starting || st == .running || st == .rest) then
    s.failPump m .pumpOverload (.pumpState st)
  else s

/-- A driver fault report on the run output (R60) reaches a STARTING or RUNNING pump. -/
def pumpDriverFault (s : State) (m : Fin 8) (d : Fin 44) (k : DriverFault) : State :=
  if s.pumps[m].onSupply then s.failPump m .driverFault (.driver d k) else s

/-- The proving timer expires (R55). -/
def provingExpires (s : State) (m : Fin 8) : State :=
  let p := s.pumps[m]
  if p.state == .starting && p.proving.isSome then s.failPump m .pumpNotProved (.flowAtGrant p.flowAtGrant) else s

/-- The min-run timer expires (R56). -/
def minRunExpires (s : State) (m : Fin 8) : State :=
  let p := s.pumps[m]
  if p.state == .running && p.minRun.isSome then (s.setPump m { p with minRun := none, minRunElapsed := true }).actOnDemand m else s

/-- The no-flow timer expires (R57). -/
def noFlowExpires (s : State) (m : Fin 8) : State :=
  let p := s.pumps[m]
  if p.state == .running && p.noFlow.isSome then s.failPump m .pumpNoFlow (.runSeconds ((s.timeMs - p.runningSince) / 1000)) else s

/-- The min-off timer expires (R58). -/
def minOffExpires (s : State) (m : Fin 8) : State :=
  let p := s.pumps[m]
  if p.state == .rest && p.minOff.isSome then s.updatePump m { p with state := if p.locked then .locked else .off, minOff := none } else s

/-- The hour reload of one pump (R64). -/
def reloadPump (s : State) (m : Fin 8) : State := s.updatePump m { s.pumps[m] with budget := s.cfg.pumps[m].starts }

/-- Enter REST with the min-off timer started (R62, R68, R69). -/
def restFrom (s : State) (m : Fin 8) (p : Pump) : State :=
  s.updatePump m { p with state := .rest, minOff := some (s.cfg.pumps[m].minOff * 1000) }

/-- CLEAR_FAILURE naming a FAILED pump (R62). -/
def clearPump (s : State) (m : Fin 8) : State :=
  let t := s.driverClear (runD m)
  let p := s.pumps[m]
  if s.made (overloadK m) then
    ((t.setPump m { p with failure := some .pumpOverload }).raise .pumpFailed m).report .pumpOverload (.pump m) s.cfg.pumps[m].sump (.pumpState .failed)
  else t.restFrom m { p with failure := none }

/-- LOCKOUT of a pump that is not locked (R66). -/
def lockPump (s : State) (m : Fin 8) : State :=
  let p := s.pumps[m]
  if p.state == .failed then (s.updatePump m { p with locked := true }).emit (.pumpNews m .locked)
  else
    (((s.driverOff (runD m)).updatePump m { p.stopTimers with state := .locked, locked := true }).leaveSupply m p.state).emit
      (.pumpNews m .locked)

/-- UNLOCK of a locked pump (R68); from LOCKED it rests, and an overload that stands MADE is then found at once. -/
def unlockPump (s : State) (m : Fin 8) : State :=
  let p := s.pumps[m]
  let q := { p with locked := false, demand := { p.demand with c := false } }
  if p.state == .locked then
    let t := (s.restFrom m q).emit (.pumpNews m .unlocked)
    if s.made (overloadK m) && s.cfg.pumps[m].enable then t.failPump m .pumpOverload (.pumpState .rest) else t
  else ((s.updatePump m q).emit (.pumpNews m .unlocked)).actOnDemand m

/-- The disable of a pump (R69), its enable having just become no. `was` is its pending status before. The notices are those of leaving the
supply (R65) and then that of the disable, which ends every order that still stands on the pump DISTURBED (R126). A
PUMP_START that the first of them activates adds nothing to the emptied set (`startsOn`, log 36). That the PEV takes the departure after the
token has moved (R44) is settled in `applyPump` (log 46). -/
def disablePump (s : State) (m : Fin 8) (was : Bool) : State :=
  let p := s.pumps[m]
  let st := if p.state == .failed then .failed else if p.locked then .locked else .off
  ((((s.driverOff (runD m)).setPump m { p.stopTimers with state := st, demand := {}, override := false }).tellSar m was p.acting).leaveSupply
    m p.state).emit (.pumpNews m .disabled)

/-- The enable of a disabled pump (R69). -/
def enablePump (s : State) (m : Fin 8) : State :=
  let p := s.pumps[m]
  if p.state == .off || p.state == .locked then s.restFrom m p else s

/-- A change of starts per hour lowers a budget above it (R64). -/
def capBudget (s : State) (m : Fin 8) (starts : Nat) : State :=
  s.updatePump m { s.pumps[m] with budget := min s.pumps[m].budget starts }

end State

end Sys2Proof.Machine
end

