-- ==== Sys2Proof/Machine/Protection.lean ====
section
/-! DEFINITION. The Protection Evaluator (chapter 3): sump states and QUIET, AUTO demands on pumps and barriers, the rotation token and the trip
rules. -/

namespace Sys2Proof.Machine

/-- R39: whether a pump is eligible for an AUTO demand, with or without the budget override. A set locked flag counts as LOCKED (R65). -/
def Pump.eligible (enabled : Bool) (p : Pump) (ov : Bool) : Bool :=
  enabled && p.state != .locked && p.state != .failed && !p.locked && (ov || decide (0 < p.budget))

/-- Whether a quantity meets a condition set (R48). -/
def CondSet.holds (c : CondSet) (threshold q : Int) : Bool :=
  (c.below && decide (q < threshold)) || (c.at_ && decide (q = threshold)) || (c.above && decide (threshold < q))

/-- A rule's records after a true or false picture that counts (R49). -/
def Rule.next (c : RuleCfg) (r : Rule) (holds : Bool) : Rule :=
  match r.state, holds with
  | .idle, true => if c.hold = 1 then { state := .fired } else { state := .counting, trueCount := 1 }
  | .idle, false => r
  | .counting, true => if c.hold ≤ r.trueCount + 1 then { state := .fired } else { r with trueCount := r.trueCount + 1 }
  | .counting, false => { r with state := .idle, trueCount := 0 }
  | .fired, true => { r with falseCount := 0 }
  | .fired, false => if c.release ≤ r.falseCount + 1 then {} else { r with falseCount := r.falseCount + 1 }

namespace State

/-- The latest picture of a sump. -/
def pictureOf (s : State) (i : Fin 4) : Picture := s.sumps[i].picture

/-! ### Trip rules (section 3.6) -/

/-- The quantity a rule watches, when the picture counts for it (R48). -/
def quantityOf (s : State) (t : Fin 16) (i : Fin 4) : Option Int :=
  let p := s.pictureOf i
  match s.cfg.rules[t].quantity, p.level with
  | _, none => none
  | .level, some l => some l
  | .inflow, some _ => if p.valid then some p.inflow else none
  | .netRise, some _ => if p.valid then some p.netRise else none

/-- Put a rule to a new record, with RULE_FIRED or RULE_RELEASED for the change (R49, R51). -/
def moveRule (s : State) (t : Fin 16) (r : Rule) : State :=
  let was := s.rules[t].state
  let u := s.setRule t r
  if was != .fired && r.state == .fired then u.raise .ruleFired t
  else if was == .fired && r.state != .fired then u.raise .ruleReleased t
  else u

/-- A rule put into IDLE with both counts 0 (R51). -/
def idleRule (s : State) (t : Fin 16) : State := s.moveRule t {}

/-- One rule at a picture of its sump (R48, R49). -/
def stepRule (s : State) (t : Fin 16) (i : Fin 4) : State :=
  if s.cfg.rules[t].enable && s.cfg.rules[t].sump == i then
    match s.quantityOf t i with
    | some q => s.moveRule t (s.rules[t].next s.cfg.rules[t] (s.cfg.rules[t].cond.holds s.cfg.rules[t].threshold q))
    | none => s
  else s

/-- Whether a FIRED rule with an action names a sump (R50). -/
def ruleFires (s : State) (i : Fin 4) (a : RuleAction) : Bool :=
  (List.finRange 16).any fun t => s.rules[t].state == .fired && s.cfg.rules[t].sump == i && s.cfg.rules[t].action == a

/-! ### Sump states (section 3.3) -/

/-- Whether a feed makes its sump FLOOD (R36). -/
def feedFlood (v : Feed) : Bool := (v.state == .shedding || v.state == .shed) && v.demand.auto

/-- Whether a feed makes its sump at least ALERT (R36). -/
def feedAlert (v : Feed) : Bool := v.state == .warned || v.state == .deferred || (v.state == .shedWait && v.demand.auto)

/-- Whether a feed of the sump meets a test, the feed's sump being the one in force (R120, log 56); a disabled feed is a feed of no sump (R104). -/
def anyFeed (s : State) (i : Fin 4) (ok : Feed → Bool) : Bool :=
  (List.finRange 12).any fun f => s.cfg.feeds[f].enable && s.feeds[f].items.sump == i && ok s.feeds[f]

/-- The sump state of R36, the first row that holds, with the thresholds in force (R34). -/
def sumpStateOf (s : State) (i : Fin 4) : SumpState :=
  match (s.pictureOf i).level with
  | none => .calm
  | some l =>
    if decide (s.sumps[i].hh ≤ l) || s.anyFeed i feedFlood then .flood
    else if decide (s.sumps[i].alert ≤ l) || s.anyFeed i feedAlert || s.ruleFires i .alert then .alert
    else .calm

/-- Put a sump to a state, with SUMP_STATE on a change (R37). -/
def moveSump (s : State) (i : Fin 4) (v : SumpState) : State :=
  if s.sumps[i].state = v then s else (s.setSump i { s.sumps[i] with state := v }).raise .sumpState i

/-- The recomputation of a sump's state (R36, R37). -/
def recomputeSump (s : State) (i : Fin 4) : State := s.moveSump i (s.sumpStateOf i)

/-- QUIET (R38): every enabled sump is CALM. -/
def quiet (s : State) : Bool := (List.finRange 4).all fun i => !s.cfg.sumps[i].enable || s.sumps[i].state == .calm

/-! ### AUTO on pumps (section 3.4) -/

/-- The enabled pumps of a sump in ascending index (R40). -/
def pumpsOf (s : State) (i : Fin 4) : List (Fin 8) :=
  (List.finRange 8).filter fun m => s.cfg.pumps[m].enable && s.cfg.pumps[m].sump == i

/-- Whether a pump is eligible (R39). -/
def eligible (s : State) (m : Fin 8) (ov : Bool) : Bool := s.pumps[m].eligible s.cfg.pumps[m].enable ov

/-- The next eligible pump of a sump after a pump in ring order, the pump itself left out (R40). -/
def nextEligible (s : State) (i : Fin 4) (m : Fin 8) : Option (Fin 8) :=
  (ringAfter 8 (some m)).find? fun k => k != m && s.cfg.pumps[k].sump == i && s.eligible k false

/-- Write the rotation token of a sump with its count and flag. -/
def setToken (s : State) (i : Fin 4) (token : Option (Fin 8)) (duty : Nat) (ran : Bool) : State :=
  s.setSump i { s.sumps[i] with token := token, duty := duty, leadRan := ran }

/-- The lead and lag placements of R40 at a level. -/
def placeLead (s : State) (i : Fin 4) (level : Nat) : State :=
  match s.sumps[i].token with
  | none => s
  | some k =>
    let t := if s.eligible k false then s else s.setToken i (some ((s.nextEligible i k).getD k)) 0 false
    let lead := (t.sumps[i].token).getD k
    let u := if t.eligible lead false then t.placeAuto lead false else t
    if s.cfg.sumps[i].lag ≤ level then
      match u.nextEligible i lead with
      | some g => u.placeAuto g false
      | none => u
    else u

/-- The lead-ran flag at a picture (R40). -/
def noteLeadRan (s : State) (i : Fin 4) : State :=
  match s.sumps[i].token with
  | some k =>
    if s.pumps[k].state == .running && s.pumps[k].demand.auto then s.setSump i { s.sumps[i] with leadRan := true } else s
  | none => s

/-- The placements of R41 at a level: HH, and START_ALL. -/
def placeAll (s : State) (i : Fin 4) (level : Nat) : State :=
  let hh := decide (s.cfg.sumps[i].hh ≤ level)
  if hh || s.ruleFires i .startAll then
    s.each (s.pumpsOf i) fun t m => if t.eligible m hh then t.placeAuto m hh else t
  else s

/-- R41: on a pump whose set already holds AUTO the override flag is added at HH, and below HH it is cleared. -/
def fixOverride (s : State) (i : Fin 4) (level : Nat) : State :=
  if s.cfg.sumps[i].hh ≤ level then s
  else s.each (List.finRange 8) fun t m =>
    if t.cfg.pumps[m].sump == i && t.pumps[m].override then t.clearOverride m else t

/-- The removal of R42 at a level. -/
def removeAtStop (s : State) (i : Fin 4) (level : Nat) : State :=
  if level ≤ s.cfg.sumps[i].stop && !s.ruleFires i .startAll then
    s.each (List.finRange 8) fun t m => if t.cfg.pumps[m].sump == i && t.pumps[m].demand.auto then t.removeAuto m else t
  else s

/-- The pumps of a sump at a picture with a level (step 3 of R35). -/
def evaluatePumps (s : State) (i : Fin 4) (level : Nat) : State :=
  let t := if s.cfg.sumps[i].lead ≤ level then s.placeLead i level else s
  (((t.noteLeadRan i).placeAll i level).fixOverride i level).removeAtStop i level

/-- A pump leaves RUNNING (R43); `i` is its sump. -/
def pumpLeft (s : State) (m : Fin 8) (i : Fin 4) : State :=
  let u := s.sumps[i]
  if u.token = some m && u.leadRan then
    if s.cfg.sumps[i].weight ≤ u.duty + 1 then s.setToken i (some ((s.nextEligible i m).getD m)) 0 false
    else s.setToken i u.token (u.duty + 1) false
  else s

/-! ### AUTO on barriers (section 3.5) -/

/-- The arrival time in a barrier's own entry of the latest picture of its sump (R29); NONE without an entry. -/
def barrierArrival (s : State) (b : Fin 6) : Nat :=
  match (s.pictureOf s.cfg.barriers[b].sump).arrivals.find? (fun a => a.kind == .barrier b) with
  | some a => a.time
  | none => 65535

/-- The test of R45 for a barrier of a sump at a level. -/
def closesAuto (s : State) (b : Fin 6) (i : Fin 4) (level : Nat) : Bool :=
  decide (s.cfg.barriers[b].closeHeight ≤ level) || decide (s.barrierArrival b ≤ s.cfg.barriers[b].closeLead) ||
    s.sumps[i].state == .flood || s.ruleFires i .closeAll

/-- AUTO set on the enabled barriers of a sump that meet R45. -/
def evaluateBarriers (s : State) (i : Fin 4) (level : Nat) : State :=
  s.each (List.finRange 6) fun t b =>
    if t.cfg.barriers[b].enable && t.cfg.barriers[b].sump == i && !t.barriers[b].closure.auto && t.closesAuto b i level then
      t.autoDemandBarrier b true
    else t

/-- R46: whether AUTO may be cleared from a barrier now, by the reopen height in force (R102, log 52). DESIGN CHOICE: for a barrier moved to
this sump, the one configured when the sump's latest picture was handled. -/
def mayClearAuto (s : State) (b : Fin 6) : Bool :=
  let i := s.cfg.barriers[b].sump
  (match s.levelOf i with
    | some l => decide (l < s.sumps[i].reopen[b])
    | none => false) && s.sumps[i].state != .flood && !s.ruleFires i .closeAll

/-! ### Handling a picture (R35) and a feed report (R37) -/

/-- The alert and HH levels (R34) and the barriers' reopen heights (R102) as configured come into force, the PEV handling a picture of the sump. -/
def takeThresholds (s : State) (i : Fin 4) : State :=
  s.setSump i { s.sumps[i] with alert := s.cfg.sumps[i].alert, hh := s.cfg.sumps[i].hh, reopen := s.cfg.reopenHeights }

/-- The four steps of R35. A picture without a level counts no rule and places and removes nothing. -/
def evaluatePicture (s : State) (i : Fin 4) : State :=
  match s.levelOf i with
  | none => (s.recomputeSump i).noteLeadRan i
  | some l =>
    let t := s.each (List.finRange 16) fun t r => t.stepRule r i
    ((t.recomputeSump i).evaluatePumps i l).evaluateBarriers i l

/-- The publication of a sump's picture reaches the PEV (R35). -/
def pictureToPev (s : State) (i : Fin 4) : State := (s.takeThresholds i).evaluatePicture i

/-- A feed of a sump has changed its state or set (R37): the state is recomputed, and FLOOD entered between pictures sets the barriers. -/
def feedReport (s : State) (i : Fin 4) : State :=
  let t := s.recomputeSump i
  if s.sumps[i].state != .flood && t.sumps[i].state == .flood then
    match t.levelOf i with
    | some l => t.evaluateBarriers i l
    | none => t
  else t

/-! ### Configuration changes and reset (R38, R44, R51) -/

/-- The lowest-indexed enabled pump of a sump (R44). -/
def lowestPump (s : State) (i : Fin 4) : Option (Fin 8) := (s.pumpsOf i).head?

/-- The token of a sump at reset, or when the sump is enabled: the lowest-indexed enabled pump, count 0, flag clear (R44). -/
def resetToken (s : State) (i : Fin 4) : State := s.setToken i (s.lowestPump i) 0 false

/-- R44: a pump has been disabled in, or moved from, a sump; the configuration already stands changed. The count and the flag of a token
that it held start anew with the lowest pump that remains. -/
def tokenLeaves (s : State) (m : Fin 8) (i : Fin 4) : State := if s.sumps[i].token = some m then s.resetToken i else s

/-- R44: a pump has been enabled in, or moved into, a sump: it takes the token when the sump has none. -/
def tokenTakes (s : State) (m : Fin 8) (i : Fin 4) : State :=
  if s.sumps[i].token.isNone then s.setToken i (some m) 0 false else s

/-- The rules that name a disabled sump (R51). -/
def idleRulesOf (s : State) (i : Fin 4) : State :=
  s.each (List.finRange 16) fun t r => if t.cfg.rules[r].sump == i then t.idleRule r else t

end State

end Sys2Proof.Machine
end

