-- ==== Sys2Proof/Machine/Orders.lean ====
section
/-! DEFINITION. The Order Queue Unit (chapter 8): acceptance, activation, completions, notices, ageing, WITHDRAW, ABORT, COLLECT and the port link
reset. -/

namespace Sys2Proof.Machine

/-- The three ports. -/
def allPorts : List Port := [.a, .b, .c]

/-- The slots a port has in use, in its queue and in its completion list (R122). -/
def PortOrders.used (o : PortOrders) : List Nat := o.queue.map (·.slot) ++ o.done.map (·.slot)

/-- The free slot count (R122): 8 less the entries and records. -/
def PortOrders.free (o : PortOrders) : Nat := 8 - (o.queue.length + o.done.length)

/-- The lowest-numbered free slot (R122). -/
def PortOrders.lowestFree (o : PortOrders) : Option Nat := (List.range 8).find? fun n => !o.used.contains n

/-- The ACTIVE entry that names a target, SETTLE apart (R126). -/
def PortOrders.activeOn (o : PortOrders) (t : Target) : Option Entry := o.queue.find? fun e => e.active && e.target == t

/-- The oldest WAITING entry that names a target (R124). -/
def PortOrders.nextOn (o : PortOrders) (t : Target) : Option Entry := o.queue.find? fun e => !e.active && e.target == t

/-- What an order's kind makes of its activation or of a notice: it waits, or it ends with an outcome and a detail. -/
inductive Verdict where
  | waits
  | granted
  | fixed
  | ends (o : Ending) (d : Detail)
deriving DecidableEq, Repr

namespace Verdict
/-- DONE without a note. -/
def done : Verdict := .ends .done {}
/-- DONE with note HELD. -/
def doneHeld : Verdict := .ends .done { held := true }
/-- DONE with notes HELD and UNHOMED. -/
def doneUnhomed : Verdict := .ends .done { held := true, unhomed := true }
/-- DISTURBED. -/
def disturbed : Verdict := .ends .disturbed {}
/-- OVERRIDDEN. -/
def overridden : Verdict := .ends .overridden {}
/-- ENDED_SHORT with a failure kind. -/
def short (k : Option FaultKind) : Verdict := .ends .endedShort { fault := k }
end Verdict

/-- Whether a kind acts on barriers. -/
def OrderKind.onBarrier : OrderKind → Bool
  | .barrierClose | .barrierOpen | .barrierHome => true
  | _ => false

namespace State

/-! ### Completions (R125) -/

/-- The barrier position that the outcome of a barrier order carries (section 8.4). -/
def positionDetail (s : State) (e : Entry) : Option (Option Nat) :=
  match e.target with
  | .barrier b => if e.kind.onBarrier then some s.barriers[b].position else none
  | _ => none

/-- The completion record of an entry posted now (section 8.1). -/
def completionOf (s : State) (e : Entry) (o : Ending) (d : Detail) : Completion :=
  { slot := e.slot, seq := e.seq, tag := e.tag, kind := e.kind, target := e.target, urgent := e.urgent, ending := o, time := s.partTime,
    detail := { d with position := s.positionDetail e } }

/-- Whether an entry still stands in its port's queue. -/
def stands (s : State) (p : Port) (e : Entry) : Bool := (s.ordersOf p).queue.any fun x => x.seq == e.seq && x.slot == e.slot

/-- Post one completion (R125): the record joins the list, the entry leaves the queue and every settle set, and ORDER_DONE is latched on the port.
An entry that has left the queue posts nothing: an order yields at most one completion. -/
def postOne (s : State) (p : Port) (e : Entry) (o : Ending) (d : Detail) : State :=
  if s.stands p e then
    (s.setOrders p
      { queue := ((s.ordersOf p).queue.filter fun x => x.seq != e.seq).map fun (x : Entry) => { x with settle := x.settle.filter (· != e.seq) }
        done := (s.ordersOf p).done ++ [s.completionOf e o d] }).latchOn p .orderDone e.slot
  else s

/-- The SETTLEs whose sets have become empty complete DONE, oldest first (R134). -/
def postSettled : Nat → State → Port → State
  | 0, s, _ => s
  | n + 1, s, p =>
    match (s.ordersOf p).queue.find? fun e => e.kind == .settle && e.settle.isEmpty with
    | some e => postSettled n (s.postOne p e .done {}) p
    | none => s

/-- Post a completion, and after it the SETTLEs that it empties (R125, R134). -/
def post (s : State) (p : Port) (e : Entry) (o : Ending) (d : Detail) : State := postSettled 8 (s.postOne p e o d) p

/-- Change one entry of a port's queue. -/
def modEntry (s : State) (p : Port) (n : Nat) (f : Entry → Entry) : State :=
  s.setOrders p { s.ordersOf p with queue := (s.ordersOf p).queue.map fun x => if x.seq = n then f x else x }

/-- Apply a verdict to an ACTIVE entry. -/
def conclude (s : State) (p : Port) (e : Entry) (v : Verdict) : State :=
  match v with
  | .waits => s
  | .granted => s.modEntry p e.seq fun x => { x with granted := true }
  | .fixed => s.modEntry p e.seq fun x => { x with fixedDone := true }
  | .ends o d => s.post p e o d

/-! ### Activation (R124, R127 to R133) -/

/-- Whether a PUMP_START that activates on a pump places its demand (section 8.3, R69): not from Port A or B on a locked pump, and not on a disabled one,
whose demand set the disable has emptied and every order on which ends DISTURBED (R126, log 36). -/
def startsOn (s : State) (p : Port) (m : Fin 8) : Bool := s.cfg.pumps[m].enable && (!s.pumps[m].locked || p == .c)

/-- PUMP_START at activation (R127). -/
def startOrder (s : State) (p : Port) (m : Fin 8) : State × Verdict :=
  if !s.startsOn p m then (s, .disturbed)
  else
    let t := s.portDemandPump m p true
    (t, match t.pumps[m].state with
      | .running => .done
      | .failed => .short t.pumps[m].failure
      | .starting => .granted
      | .off | .rest | .locked => .waits)

/-- PUMP_STOP at activation (R128). -/
def stopOrder (s : State) (p : Port) (m : Fin 8) : State × Verdict :=
  let t := s.portDemandPump m p false
  (t, if t.pumps[m].demand.some then .doneHeld else if t.pumps[m].onSupply then .fixed else .done)

/-- BARRIER_CLOSE at activation (R129). -/
def closeOrder (s : State) (p : Port) (b : Fin 6) : State × Verdict :=
  if s.barriers[b].locked && p != .c then (s, .disturbed)
  else
    let t := s.portDemandBarrier b p true
    (t, match t.barriers[b].state with
      | .sealed => .done
      | .fault => .short t.barriers[b].failure
      | .closedUnsealed => if t.barriers[b].sealTimer.isNone then .short (some .sealFail) else .waits
      | _ => .waits)

/-- The effect of a BARRIER_OPEN (R46, R83, R130): the port's demand goes, AUTO goes for Ports A and B when R46 allows, and the release target becomes
OPEN when the acting set is then empty. While the barrier is locked only Port C's order lets the release target act (R96, log 47). -/
def openEffect (s : State) (p : Port) (b : Fin 6) : State :=
  let clears := p != .c && s.mayClearAuto b
  s.updateBarrier b fun r =>
    let c := r.closure.put p false
    let q := { r with closure := { c with auto := c.auto && !clears } }
    if q.acting.some then q else { q with release := .openEnd, releaseHeld := r.releaseHeld && p != .c }

/-- BARRIER_OPEN at activation (R130), the first condition that holds. DESIGN CHOICE: the row of an unknown position is that of UNHOMED and LOCKED, which it
names, and of no other state; on a CLOSING or HOMING barrier without a known position the order waits, in UNHOMED too once the barrier halts there (log 64). -/
def openOrder (s : State) (p : Port) (b : Fin 6) : State × Verdict :=
  let t := s.openEffect p b
  let r := t.barriers[b]
  (t, if p != .c && r.closure.auto then .overridden
    else if r.acting.some then .doneHeld
    else if r.state == .openEnd then .done
    else if r.position.isNone && (r.state == .unhomed || r.state == .locked) then .doneUnhomed
    else if r.state == .fault then .short r.failure
    else .waits)

/-- BARRIER_HOME at activation (R91, R131). DESIGN CHOICE: where the acting closure set is not empty its row goes before the row of the state, as in OPEN or
FAULT, which no words of the rules order (log 63). -/
def homeOrder (s : State) (p : Port) (b : Fin 6) : State × Verdict :=
  let r := s.barriers[b]
  if r.locked && p != .c then (s, .disturbed)
  else if r.acting.some then (s, .overridden)
  else
    match r.state with
    | .openEnd => (s, .done)
    | .closedUnsealed | .sealed | .closing => (s, .overridden)
    | .fault => (s, .short r.failure)
    | .unhomed | .stopped | .locked | .homing | .opening => (s.setHome b p true, .waits)

/-- FEED_SHED at activation (R109, R132). Here and in the next two the order first brings the feed's items into force (R120). -/
def shedOrder (s : State) (p : Port) (f : Fin 12) : State × Verdict :=
  let t := (s.takeItems f).shedFeed f p
  (t, match t.feeds[f].state with
    | .shed => .done
    | .fault => .short t.feeds[f].failure
    | _ => .waits)

/-- FEED_RESTORE at activation (R113, R133). -/
def restoreOrder (s : State) (p : Port) (f : Fin 12) : State × Verdict :=
  let t := if p = .a then (s.takeItems f).restoreByA f else (s.takeItems f).restoreByB f
  (t.1, match t.2 with
    | .conditionsFail => .overridden
    | .held => .doneHeld
    | .live | .done => .done
    | .fault => .short t.1.feeds[f].failure
    | .pending => .waits)

/-- FEED_DEFER at activation (R114, R132). -/
def deferOrder (s : State) (f : Fin 12) (seconds : Nat) : State × Verdict :=
  let t := (s.takeItems f).deferFeed f seconds
  (t.1, match t.2 with
    | .tooLate => .ends .tooLate {}
    | .overridden => .overridden
    | .granted n => .ends .done { seconds := some n }
    | .preArmed n => .ends .done { seconds := some n, held := true })

/-- The effect of an entry's kind on its target, and what becomes of the entry. A kind that does not act on the target's class has no entry (R123). -/
def orderEffect (s : State) (p : Port) (e : Entry) : State × Verdict :=
  match e.kind, e.target with
  | .pumpStart, .pump m => s.startOrder p m
  | .pumpStop, .pump m => s.stopOrder p m
  | .barrierClose, .barrier b => s.closeOrder p b
  | .barrierOpen, .barrier b => s.openOrder p b
  | .barrierHome, .barrier b => s.homeOrder p b
  | .feedShed, .feed f => s.shedOrder p f
  | .feedRestore, .feed f => s.restoreOrder p f
  | .feedDefer, .feed f => s.deferOrder f e.seconds
  | _, _ => (s, .waits)

/-- An entry becomes ACTIVE (R124): its age mark is cleared and its effect applied. -/
def activateEntry (s : State) (p : Port) (e : Entry) : State :=
  let t := (s.modEntry p e.seq fun x => { x with active := true, mark := false }).orderEffect p e
  t.1.conclude p e t.2

/-- R124: while no entry of the port on the target is ACTIVE, the oldest WAITING one becomes so; each that ends at once is followed by the next. -/
def advance : Nat → State → Port → Target → State
  | 0, s, _, _ => s
  | n + 1, s, p, t =>
    match (s.ordersOf p).activeOn t with
    | some _ => s
    | none =>
      match (s.ordersOf p).nextOn t with
      | some e => advance n (s.activateEntry p e) p t
      | none => s

/-- The entry of an order accepted now (R122, R134). -/
def entryOf (s : State) (p : Port) (slot : Nat) (tag : Byte) (kind : OrderKind) (target : Target) (urgent : Bool) (seconds : Nat) : Entry :=
  { slot := slot, seq := s.nextSeq, tag := tag, kind := kind, target := target, urgent := urgent, seconds := seconds
    active := kind == .settle, settle := if kind = .settle then (s.ordersOf p).queue.map (·.seq) else [] }

/-- An accepted order joins the queue with the next sequence number (R122, R123). -/
def enqueue (s : State) (p : Port) (e : Entry) : State :=
  { s.setOrders p { s.ordersOf p with queue := (s.ordersOf p).queue ++ [e] } with nextSeq := s.nextSeq + 1 }

/-- An order is accepted into a slot (R122 to R124, R134). -/
def acceptOrder (s : State) (p : Port) (e : Entry) : State :=
  let t := s.enqueue p e
  if e.kind = .settle then postSettled 1 t p else advance 9 t p e.target

/-! ### Notices (R126) -/

/-- What a pump's notice makes of an ACTIVE entry (R127, R128). -/
def pumpVerdict (news : PumpNews) (p : Port) (e : Entry) : Verdict :=
  match e.kind, news with
  | .pumpStart, .granted => .granted
  | .pumpStart, .running => .done
  | .pumpStart, .failed k => .short (some k)
  | .pumpStart, .locked => if p = .c then .waits else .disturbed
  | .pumpStop, .leftRunning => if e.fixedDone then .done else .waits
  | .pumpStop, .failed _ => if e.fixedDone then .done else .waits
  | .pumpStop, .locked => if e.fixedDone then .done else .waits
  | _, _ => .waits

/-- What a barrier's notice makes of an ACTIVE entry (R126, R129 to R131). -/
def barrierVerdict (news : BarrierNews) (p : Port) (e : Entry) : Verdict :=
  match news with
  | .locked => if p = .c then .waits else .disturbed
  | .faulted k => .short (some k)
  | .sealed => if e.kind = .barrierClose then .done else .waits
  | .sealFailed => if e.kind = .barrierClose then .short (some .sealFail) else .waits
  | .reachedOpen => if e.kind = .barrierClose then .waits else .done
  | .homingDisturbed => if e.kind = .barrierClose then .waits else .disturbed
  | .turned | .halted | .wantLost => if e.kind = .barrierOpen then .disturbed else .waits
  | .closedUnsealed | .unlocked | .disabled => .waits

/-- What a feed's notice makes of an ACTIVE entry (R132, R133). -/
def feedVerdict (news : FeedNews) (e : Entry) : Verdict :=
  match e.kind, news with
  | .feedShed, .reachedShed => .done
  | .feedRestore, .reachedLive => .done
  | .feedRestore, .shedAgain => .disturbed
  | .feedShed, .failed k => .short (some k)
  | .feedRestore, .failed k => .short (some k)
  | _, _ => .waits

/-- A notice is applied to the ACTIVE entry on its target in each of the three queues; then the next entries become ACTIVE (R124, R126).
DESIGN CHOICE: where it ends entries of several ports, all are ended first and then the ports' next entries become ACTIVE in the order A, B, C; no rule
orders the ports (log 59). -/
def applyNews (s : State) (t : Target) (verdict : Port → Entry → Verdict) : State :=
  (s.each allPorts fun u p =>
    match (u.ordersOf p).activeOn t with
    | some e => u.conclude p e (verdict p e)
    | none => u).each allPorts fun u p => advance 9 u p t

/-- Every entry of a port on a target completes DISTURBED, in acceptance order (R126). -/
def disturbAll (s : State) (p : Port) (t : Target) : State :=
  s.each ((s.ordersOf p).queue.filter fun e => e.target == t) fun u e => u.post p e .disturbed {}

/-- A pump's notice to the OQU (R126). -/
def newsOfPump (s : State) (m : Fin 8) (news : PumpNews) : State :=
  match news with
  | .unlocked => s.disturbAll .c (.pump m)
  | .disabled => s.each allPorts fun u p => u.disturbAll p (.pump m)
  | _ => s.applyNews (.pump m) (pumpVerdict news)

/-- A barrier's notice to the OQU (R126). -/
def newsOfBarrier (s : State) (b : Fin 6) (news : BarrierNews) : State :=
  match news with
  | .unlocked => s.disturbAll .c (.barrier b)
  | .disabled => s.each allPorts fun u p => u.disturbAll p (.barrier b)
  | _ => s.applyNews (.barrier b) (barrierVerdict news)

/-- A feed's notice to the OQU (R126). -/
def newsOfFeed (s : State) (f : Fin 12) (news : FeedNews) : State :=
  match news with
  | .disabled => s.each allPorts fun u p => u.disturbAll p (.feed f)
  | _ => s.applyNews (.feed f) fun _ e => feedVerdict news e

/-! ### The age timer (R135) -/

/-- Whether an entry ages: WAITING, or an ACTIVE PUMP_START that is not granted. -/
def ages (e : Entry) : Bool := !e.active || (e.kind == .pumpStart && !e.granted)

/-- An entry goes stale: an ACTIVE PUMP_START first removes its demand. -/
def staleEntry (s : State) (p : Port) (e : Entry) : State :=
  let t := match e.active, e.target with
    | true, .pump m => s.portDemandPump m p false
    | _, _ => s
  advance 9 (t.post p e .stale {}) p e.target

/-- Step 1 for one entry, as it stands when its turn comes. -/
def staleIfMarked (s : State) (p : Port) (n : Nat) : State :=
  match (s.ordersOf p).queue.find? fun e => e.seq == n with
  | some e => if e.mark && ages e then s.staleEntry p e else s
  | none => s

/-- Step 2 for a queue: entries that age are marked, but for those that step 1 made ACTIVE. -/
def markQueue (s : State) (p : Port) (waited : List Nat) : State :=
  s.setOrders p { s.ordersOf p with
    queue := (s.ordersOf p).queue.map fun (e : Entry) => if ages e && !(e.active && waited.contains e.seq) then { e with mark := true } else e }

/-- One queue at an age expiry. -/
def ageQueue (s : State) (p : Port) : State :=
  let q := (s.ordersOf p).queue
  (s.each (q.map (·.seq)) fun t n => t.staleIfMarked p n).markQueue p ((q.filter fun e => !e.active).map (·.seq))

/-- The age timer expires (R135). -/
def ageExpires (s : State) : State := s.each allPorts fun t p => t.ageQueue p

/-! ### Requests on the queue (R136 to R138) -/

/-- The WAITING entries of a port for a target. -/
def waitingOn (s : State) (p : Port) (t : Target) : List Entry := (s.ordersOf p).queue.filter fun e => !e.active && e.target == t

/-- WITHDRAW (R136). -/
def withdrawAll (s : State) (p : Port) (t : Target) : State := s.each (s.waitingOn p t) fun u e => u.post p e .withdrawn {}

/-- What an ABORT undoes (R137). DESIGN CHOICE: it is no order by which a feed's items come into force (R120, log 56). -/
def undoOrder (s : State) (p : Port) (e : Entry) : State :=
  match e.kind, e.target with
  | .pumpStart, .pump m => s.portDemandPump m p false
  | .barrierClose, .barrier b => s.updateBarrier b fun r => { r with closure := r.closure.put p false, release := .halt }
  | .barrierOpen, .barrier b => s.setRelease b .halt
  | .barrierHome, .barrier b => s.updateBarrier b fun r => { r with home := r.home.put p false, release := .halt }
  | .feedShed, .feed f => (if p = .a then s.setFeed f { s.feeds[f] with request := false } else s).unshedFeed f p
  | .feedRestore, .feed f => if p = .a then s.clearRequest f else s
  | _, _ => s

/-- ABORT of the ACTIVE entry on a target (R137); the next entry on the target is then activated. -/
def abortOn (s : State) (p : Port) (e : Entry) : State := ((s.post p e .aborted {}).undoOrder p e).emit (.activate p e.target)

/-- ABORT naming PORT (R137): every SETTLE of the port, in acceptance order. -/
def abortSettles (s : State) (p : Port) : State :=
  s.each ((s.ordersOf p).queue.filter fun e => e.kind == .settle) fun t e => t.postOne p e .aborted {}

/-- COLLECT takes the oldest record (R138). -/
def dropDone (s : State) (p : Port) : State := s.setOrders p { s.ordersOf p with done := (s.ordersOf p).done.tail }

/-! ### Port link reset (R139) -/

/-- The OQU's part of a port link reset: queue and list emptied, the port's pump demands removed, and for Port A every deferral ended. -/
def linkResetOrders (s : State) (p : Port) : State :=
  let t := (s.setOrders p {}).each (List.finRange 8) fun t m => if t.pumps[m].demand.has p then t.portDemandPump m p false else t
  if p = .a then t.linkResetFeeds else t

end State

end Sys2Proof.Machine
end

