-- ==== Sys2Proof/Machine/Flags.lean ====
section
/-! DEFINITION. The attention line (R150), the flags of a reply (R143) and the codes of results and causes (sections 9.5 and 9.6). -/

namespace Sys2Proof.Machine

/-- Whether an unmasked latch set of a port is not empty (R150). -/
def PortState.unmasked (p : PortState) : Bool :=
  (List.finRange 21).any fun k => p.mask.getLsbD k && p.latches[k] != 0

namespace State

/-- The attention line of a port as its list, latches and mask stand (R150). -/
def attentionOf (s : State) (p : Port) : Bool := !(s.ordersOf p).done.isEmpty || (s.port p).unmasked

/-- Recompute one attention line. -/
def updateLine (s : State) (p : Port) : State := s.setPort p { s.port p with attention := s.attentionOf p }

/-- Recompute the three attention lines (R150). -/
def updateAttention (s : State) : State := ((s.updateLine .a).updateLine .b).updateLine .c

/-- The flag *fault held* (R151). -/
def faultHeld (s : State) : Bool := s.fcr.record.isSome

end State

/-- The code of a result (section 9.5). -/
def Result.code : Result → Nat
  | .accepted => 0
  | .clamped => 1
  | .noSlot => 2
  | .notPermitted => 3
  | .noTarget => 4
  | .lockedOut => 5
  | .badKind => 6
  | .notQuiet => 7
  | .orderViolation => 8
  | .valueInUse => 9
  | .duplicateRank => 10
  | .busy => 11
  | .nothingActive => 12
  | .empty => 13
  | .badRequest => 14

/-- Whether a request was refused, so that its reply carries no data (R143). -/
def Result.refused : Result → Bool
  | .accepted | .clamped => false
  | _ => true

/-- The cause of a frame discard (section 9.6, LINK). -/
inductive DiscardCause where
  | start | length | crc | gap | overrun
deriving DecidableEq, Repr

/-- The source index of LINK for a cause. -/
def DiscardCause.code : DiscardCause → Nat
  | .start => 0
  | .length => 1
  | .crc => 2
  | .gap => 3
  | .overrun => 4

/-- The flags byte of a reply (section 9.7): bit 0 attention, bit 1 fault held, bit 2 QUIET. -/
def Reply.flags (r : Reply) : Byte := byte (r.attention.toNat + 2 * r.faultHeld.toNat + 4 * r.quiet.toNat)

/-- The body of a reply (R143). -/
def Reply.body (r : Reply) : List Byte := [r.code + 0x80, r.tag, byte r.result.code, byte r.free, r.flags] ++ r.data

/-- The frame of a reply on the line (R141): start byte 0x3C. -/
def Reply.frame (r : Reply) : List Byte := frameOf 0x3C r.body

end Sys2Proof.Machine
end

