-- ==== Sys2Proof/Machine/Supply.lean ====
section
/-! DEFINITION. The Supply Arbiter (chapter 5): start slots, the pending-start set, decisions and grant order. -/

namespace Sys2Proof.Machine

/-- The protective class (R74): the acting set holds AUTO. -/
def Waiting.protective (w : Waiting) : Bool := w.acting.auto

/-- The pending-start set without a pump. -/
def Sar.without (a : Sar) (m : Fin 8) : List Waiting := a.waiting.filter fun w => w.pump != m

namespace State

/-- The first protective pump in grant order (R76): the sumps in ring order after the pointer, and in a sump the lowest index. -/
def firstProtective (s : State) : Option (Fin 8) :=
  (ringAfter 4 s.sar.pointer).findSome? fun i =>
    (List.finRange 8).find? fun m => s.cfg.pumps[m].sump == i && s.sar.waiting.any fun w => w.pump == m && w.protective

/-- The sequence numbers of the active PUMP_START orders of one class that name a pump, on any port (R77). -/
def startOrders (s : State) (m : Fin 8) (urgent : Bool) : List Nat :=
  [Port.a, .b, .c].flatMap fun p =>
    ((s.ordersOf p).queue.filter fun e => e.active && e.kind == .pumpStart && e.target == .pump m && e.urgent == urgent).map (·.seq)

/-- The rank of a waiting port pump (R77): URGENT by its oldest urgent order, then ROUTINE by its oldest, then by index. -/
def portRank (s : State) (m : Fin 8) : Nat × Nat :=
  match (s.startOrders m true).min? with
  | some n => (0, n)
  | none =>
    match (s.startOrders m false).min? with
    | some n => (1, n)
    | none => (2, m)

/-- Whether a rank goes before another. -/
def rankBefore (x y : Nat × Nat) : Bool := decide (x.1 < y.1 ∨ (x.1 = y.1 ∧ x.2 < y.2))

/-- The first port pump in grant order (R77). -/
def firstPort (s : State) : Option (Fin 8) :=
  (List.finRange 8).foldl (fun best m =>
    if s.sar.waiting.any (fun w => w.pump == m && !w.protective) then
      match best with
      | none => some m
      | some k => if rankBefore (s.portRank m) (s.portRank k) then some m else best
    else best) none

/-- The first pump of the pending-start set in grant order, and whether its grant is protective (R76). -/
def firstWaiting (s : State) : Option (Fin 8 × Bool) :=
  match s.firstProtective with
  | some m => some (m, true)
  | none => s.firstPort.map fun m => (m, false)

/-- Issue a grant (R78): the pump leaves the set, the slot is counted, a protective grant moves the pointer, and the former pointer is kept. -/
def issueGrant (s : State) (m : Fin 8) (protective : Bool) : State :=
  { s with sar := { count := s.sar.count + 1, waiting := s.sar.without m,
                    pointer := if protective then some s.cfg.pumps[m].sump else s.sar.pointer,
                    outstanding := some (m, s.sar.pointer) } }.emit (.grantPump m)

/-- A decision (R75): while no grant is outstanding, a slot is free and a pump waits, the first in grant order is granted. The SAR looks
again when that grant has been taken or handed back (R78). -/
def sarDecide (s : State) : State :=
  if s.sar.outstanding.isNone && s.sar.count < s.cfg.supplyLimit then
    match s.firstWaiting with
    | some (m, pr) => s.issueGrant m pr
    | none => s
  else s

/-- A pump is reported pending (R74, R75). -/
def sarPending (s : State) (m : Fin 8) (d : DemandSet) : State :=
  { s with sar := { s.sar with waiting := s.sar.without m ++ [Waiting.mk m d] } }.sarDecide

/-- A pending pump's acting set has changed (R74): the kept set is replaced; no decision (R75). -/
def sarActing (s : State) (m : Fin 8) (d : DemandSet) : State :=
  { s with sar := { s.sar with waiting := s.sar.waiting.map fun (w : Waiting) => if w.pump == m then { w with acting := d } else w } }

/-- A pump is reported no longer pending (R74). -/
def sarNotPending (s : State) (m : Fin 8) : State :=
  { s with sar := { s.sar with waiting := s.sar.without m } }

/-- A slot is freed (R79). -/
def sarFreed (s : State) : State := { s with sar := { s.sar with count := s.sar.count - 1 } }.sarDecide

/-- A grant has been taken (R78): it is no longer outstanding, and the SAR looks again (R75). -/
def sarTaken (s : State) : State := { s with sar := { s.sar with outstanding := none } }.sarDecide

/-- A grant is handed back (R78): the count falls, the pointer returns to the kept value, and a decision is made. -/
def sarHandedBack (s : State) : State :=
  { s with sar := { s.sar with count := s.sar.count - 1, outstanding := none,
                               pointer := match s.sar.outstanding with
                                 | some (_, former) => former
                                 | none => s.sar.pointer } }.sarDecide

end State

end Sys2Proof.Machine
end

