-- ==== Sys2Proof/Machine/Probes.lean ====
section
/-! DEFINITION. The Probe Front End (section 1.1): raw codes, sample levels, filtered levels and probe states. -/

namespace Sys2Proof.Machine

/-- The raw code of a loop current in µA (R1): the current in mA times 163.8, truncated. R1 gives codes 0..4095; for a larger current the code
is open, but for its judgement: it is above 3440 (R2, R9, log 10). -/
def rawCode (microamps : Nat) : Nat :=
  if microamps * 1638 / 10000 ≤ 4095 then microamps * 1638 / 10000 else 3441 + (Config.overRangeCode microamps).val

/-- Whether a raw code is valid (R2). -/
def codeValid (code : Nat) : Bool := decide (590 ≤ code ∧ code ≤ 3440)

/-- The span value of a valid code (R3). -/
def spanValue (span code : Nat) : Nat :=
  if code ≤ 655 then 0 else if code < 3276 then (code - 655) * span / 2621 else span

/-- The sample level of a valid code (R3): at most 6000 mm. -/
def sampleLevel (c : ProbeCfg) (code : Nat) : Nat := min 6000 (c.offset + spanValue c.span code)

/-- Append to a ring of 8, the oldest entry leaving a full one (R1, R4). -/
def push8 (ring : List Nat) (v : Nat) : List Nat := if ring.length < 8 then ring ++ [v] else ring.tail ++ [v]

namespace Probe

/-- The filtered level (R4): the truncated mean of a full ring. -/
def filtered (p : Probe) : Option Nat := if p.ring.length = 8 then some (p.ring.sum / 8) else none

/-- The filtered level that a state record and a picture show: absent in LOST (R7). -/
def shown (p : Probe) : Option Nat := if p.state = .lost then none else p.filtered

/-- A probe with a valid sample counted in UNPROVEN (R5), and whether it raises PROBE_BACK. -/
def prove (p : Probe) (level : Nat) : Probe × Bool :=
  let q := { p with ring := push8 p.ring level, validRun := p.validRun + 1 }
  if 8 ≤ q.validRun then ({ q with state := .good, validRun := 0, invalidRun := 0, wasLost := false }, p.wasLost) else (q, false)

end Probe

namespace State

/-- A valid sample (R5, R6, R7). -/
def validSample (s : State) (i : Fin 8) (level : Nat) : State :=
  let p := s.probes[i]
  match p.state with
  | .disabled => s
  | .unproven =>
    let r := p.prove level
    let t := s.setProbe i r.1
    if r.2 then t.raise .probeBack i else t
  | .good => s.setProbe i { p with invalidRun := 0, ring := push8 p.ring level }
  | .lost => s.setProbe i ({ p with state := .unproven, ring := [], validRun := 0 }.prove level).1

/-- An invalid sample (R5, R6, R7). -/
def invalidSample (s : State) (i : Fin 8) : State :=
  let p := s.probes[i]
  match p.state with
  | .unproven => s.setProbe i { p with validRun := 0 }
  | .good =>
    if 4 ≤ p.invalidRun + 1 then (s.setProbe i { p with state := .lost, invalidRun := 0, wasLost := true }).raise .probeLost i
    else s.setProbe i { p with invalidRun := p.invalidRun + 1 }
  | .disabled | .lost => s

/-- One probe at a sampling instant (R1): a DISABLED probe is not sampled. -/
def sampleProbe (s : State) (i : Fin 8) (microamps : Nat) : State :=
  let p := s.probes[i]
  if p.state = .disabled then s
  else
    let code := rawCode microamps
    let t := s.setProbe i { p with raw := push8 p.raw code }
    if codeValid code then t.validSample i (sampleLevel s.cfg.probes[i] code) else t.invalidSample i

/-- A sampling instant (R1): every probe in turn; the probes do not touch one another. -/
def sampleAll (s : State) (currents : Vector Nat 8) : State := s.each (List.finRange 8) fun t i => t.sampleProbe i currents[i]

/-- The disable of a probe (R8). -/
def disableProbe (s : State) (i : Fin 8) : State := s.setProbe i {}

/-- The enable of a DISABLED probe (R8). -/
def enableProbe (s : State) (i : Fin 8) : State := s.setProbe i { state := .unproven }

/-- A change of span or offset (R8): a probe that is not DISABLED proves itself anew; its raw code ring is kept. -/
def reproveProbe (s : State) (i : Fin 8) : State :=
  let p := s.probes[i]
  if p.state = .disabled then s else s.setProbe i { state := .unproven, raw := p.raw }

end State

end Sys2Proof.Machine
end

