-- ==== Sys2Proof/Machine/Water.lean ====
section
/-! DEFINITION. The Water Picture Unit (chapter 2): level, history ring, volume, inflow, net rise, arrival times and the published picture. -/

namespace Sys2Proof.Machine

/-- The volume held at a level, in L (R24). -/
def volume (c : SumpCfg) (level : Nat) : Nat :=
  if level ≤ c.brim then level * c.area else c.brim * c.area + (level - c.brim) * c.floor

/-- Clamp to a signed 16-bit flow (R26, R27). -/
def clampFlow (v : Int) : Int := max (-32768) (min 32767 v)

/-- Append to a history ring of 16 (R22). -/
def push16 (ring : List HistEntry) (e : HistEntry) : List HistEntry := if ring.length < 16 then ring ++ [e] else ring.tail ++ [e]

/-- The number of substituted entries of a ring. -/
def substitutedIn (ring : List HistEntry) : Nat := (ring.filter (·.substituted)).length

/-- Whether inflow is VALID with a ring (R25). -/
def ringValid (ring : List HistEntry) : Bool := decide (4 ≤ ring.length) && (substitutedIn ring == 0)

/-- Inflow from a ring, oldest first (R26); the quotient truncates toward zero. -/
def inflowOf (c : SumpCfg) (ring : List HistEntry) : Int :=
  match ring with
  | [] => 0
  | e1 :: rest =>
    let newest := (rest.getLast?.getD e1).level
    let gain : Int := (volume c newest : Int) - (volume c e1.level : Int)
    clampFlow (Int.tdiv (gain + ((rest.map (·.pumped)).sum : Nat)) (2 * rest.length : Nat))

/-- The arrival time at a height (R28), the first condition that holds. `level` is absent when the source is NO_DATA. -/
def arrivalTime (c : SumpCfg) (level : Option Nat) (valid : Bool) (netRise : Int) (height : Nat) : Nat :=
  match level with
  | none => 65535
  | some l =>
    if height ≤ l then 0
    else if !valid || decide (netRise ≤ 0) then 65535
    else max 1 (min 65534 ((volume c height - volume c l) / netRise.toNat))

namespace State

/-- The running pumps that count toward a sump (R23): the sum of their rated flows. -/
def runningFlow (s : State) (i : Fin 4) : Nat :=
  (((List.finRange 8).filter fun m => s.cfg.pumps[m].sump == i && s.pumps[m].state == .running).map fun m => s.cfg.pumps[m].flow).sum

/-- The watched heights of a sump, in list order (R29). -/
def watchedHeights (s : State) (i : Fin 4) : List (HeightKind × Nat) :=
  let c := s.cfg.sumps[i]
  [(.brim, c.brim), (.alert, c.alert), (.hh, c.hh)] ++
    ((List.finRange 6).filter fun b => s.cfg.barriers[b].enable && s.cfg.barriers[b].sump == i).map
      (fun b => (HeightKind.barrier b, s.cfg.barriers[b].closeHeight)) ++
    ((List.finRange 12).filter fun f => s.cfg.feeds[f].enable && s.cfg.feeds[f].sump == i).map
      (fun f => (HeightKind.feed f, s.cfg.feeds[f].trip))

/-- A probe as a sweep takes it (R9, R30). -/
def probeView (s : State) (i : Fin 8) : ProbeView := ⟨s.probes[i].state, s.probes[i].shown⟩

/-- The primary probe of a sump. -/
def primaryOf (i : Fin 4) : Fin 8 := ⟨2 * i, by omega⟩
/-- The partner probe of a sump. -/
def partnerOf (i : Fin 4) : Fin 8 := ⟨2 * i + 1, by omega⟩

/-- The filtered level of a probe in GOOD; none in any other state (R9, R19). -/
def goodLevel (s : State) (i : Fin 8) : Option Nat := if s.probes[i].state = .good then some (s.probes[i].filtered.getD 0) else none

/-- The sump level and its source at a sweep (R19, R21). -/
def chooseLevel (s : State) (i : Fin 4) : Option Nat × LevelSource :=
  match s.goodLevel (primaryOf i), s.goodLevel (partnerOf i) with
  | some x, some y => (some (max x y), .higherOfTwo)
  | some x, none => (some x, .primary)
  | none, some y => (some y, .partner)
  | none, none =>
    if s.sumps[i].hasData then
      match s.cfg.sumps[i].loss with
      | .hold => (s.sumps[i].picture.level, .held)
      | .assumeHigh => (some s.cfg.sumps[i].hh, .assumedHigh)
    else (none, .noData)

/-- The difference of two levels. -/
def levelGap (x y : Nat) : Nat := max x y - min x y

/-- The disagree flag after a sweep (R20). -/
def disagreeAfter (s : State) (i : Fin 4) : Bool :=
  match s.goodLevel (primaryOf i), s.goodLevel (partnerOf i) with
  | some x, some y => decide (s.cfg.sumps[i].band < levelGap x y)
  | _, _ => s.sumps[i].disagree

/-- The history ring after a sweep (R18, R22). -/
def ringAfterSweep (s : State) (i : Fin 4) : List HistEntry :=
  match s.chooseLevel i with
  | (some l, src) =>
    push16 s.sumps[i].ring ⟨l, src == .held || src == .assumedHigh, 2 * s.runningFlow i⟩
  | (none, _) => s.sumps[i].ring

/-- The picture that a sweep publishes (R30). -/
def pictureAt (s : State) (i : Fin 4) : Picture :=
  let c := s.cfg.sumps[i]
  let lv := s.chooseLevel i
  let ring := s.ringAfterSweep i
  let valid := ringValid ring && lv.1.isSome
  let flow := s.runningFlow i
  let inflow := if valid then inflowOf c ring else 0
  let net := if valid then clampFlow (inflow - flow) else 0
  { time := s.partTime, level := lv.1, source := lv.2, disagree := s.disagreeAfter i
    primary := s.probeView (primaryOf i), partner := s.probeView (partnerOf i)
    entries := ring.length, substituted := substitutedIn ring, inflow := inflow, netRise := net, valid := valid, running := flow
    arrivals := (s.watchedHeights i).map fun h => ⟨h.1, h.2, arrivalTime c lv.1 valid net h.2⟩ }

/-- The items of the feeds of a sump come into force with a picture of it (R120): of the feeds configured to it, and of those that were its own until now
(DESIGN CHOICE for the latter, log 56). -/
def takeFeedItems (s : State) (i : Fin 4) : State :=
  s.each (List.finRange 12) fun t f => if t.cfg.feeds[f].sump == i || t.feeds[f].items.sump == i then t.takeItems f else t

/-- One sump's evaluation at a sweep (R18), with its publication to the Protection Evaluator and the Shed Sequencer (R30); the items of its feeds come into
force with the picture that shows their heights (R120). -/
def sweepSump (s : State) (i : Fin 4) : State :=
  if s.cfg.sumps[i].enable then
    let u := s.sumps[i]
    let d := s.disagreeAfter i
    let t := (s.setSump i
      { u with
        ring := s.ringAfterSweep i, hasData := u.hasData || (s.chooseLevel i).1.isSome, disagree := d, picture := s.pictureAt i }).takeFeedItems i
    (((if d && !u.disagree then t.raise .disagree i else t).emit (.pictureToPev i))).emit (.pictureToShs i)
  else s

/-- SWEEP (R18): every enabled sump is evaluated, the four evaluations having no order among them. -/
def sweepAll (s : State) : State := s.each (List.finRange 4) fun t i => t.emit (.sweepSump i)

/-- The disabled or empty picture of R31 and R33: what those rules name is cleared, the rest stays as it is. -/
def Picture.emptied (p : Picture) : Picture :=
  { p with
    level := none, source := .noData, disagree := false, entries := 0, substituted := 0, inflow := 0, netRise := 0, valid := false
    arrivals := p.arrivals.map fun a => { a with time := 65535 } }

/-- The WPU's part of a sump enable or disable (R31). -/
def emptySump (s : State) (i : Fin 4) : State :=
  s.setSump i { s.sumps[i] with ring := [], hasData := false, disagree := false, picture := Picture.emptied s.sumps[i].picture }

/-- The WPU's state of a sump at reset (R33): an empty picture of the watched heights of the loaded configuration. -/
def resetSump (s : State) (i : Fin 4) : State :=
  s.setSump i { picture := { arrivals := (s.watchedHeights i).map fun h => ⟨h.1, h.2, 65535⟩ }
                alert := s.cfg.sumps[i].alert, hh := s.cfg.sumps[i].hh, reopen := s.cfg.reopenHeights }

end State

end Sys2Proof.Machine
end

