-- ==== Sys2Proof/Machine/Cascade.lean ====
section
/-! DEFINITION. What one command gives rise to: the notices between the blocks, taken one at a time until none is left. Notices from one block to one receiver about one
unit form a LANE and are taken in the order made; between lanes the order is the command's to pick, since the manual leaves it open (log 6). -/

namespace Sys2Proof.Machine

/-- The lane of a notice: its receiver with the block it comes from, and the unit it is about. A picture, a feed's report and a pump's departure reach the
Protection Evaluator from three blocks and may be taken in any order (R37, R43). -/
def Notice.lane : Notice → Nat × Nat
  | .contact k _ => (0, k)
  | .driverFault d _ => (1, d)
  | .sweepSump i => (2, i)
  | .pictureToPev i => (3, i)
  | .pictureToShs i => (4, i)
  | .shsChain _ c => (5, c)
  | .feedReport i => (18, i)
  | .pumpLeft _ i => (19, i)
  | .sarPending m _ => (6, m)
  | .sarNotPending m => (6, m)
  | .sarActing m _ => (6, m)
  | .sarFreed m => (6, m)
  | .sarTaken m => (6, m)
  | .sarHandedBack m => (6, m)
  | .grantPump m => (7, m)
  | .darWants b _ => (8, b)
  | .darNoWant b => (8, b)
  | .darFreed b => (8, b)
  | .darTaken b => (8, b)
  | .darHandedBack b => (8, b)
  | .grantBarrier b => (9, b)
  | .pumpNews m _ => (10, m)
  | .barrierNews b _ => (11, b)
  | .feedNews f _ => (12, f)
  | .activate p _ => (13, p.idx)
  | .fault r =>
    match r.unit with
    | some (.pump m) => (14, m)
    | some (.barrier b) => (15, b)
    | some (.feed f) => (16, f)
    | some .port | none => (17, 0)

/-- The places in a work list of the notices that are first of their lanes. -/
def laneHeads : List Notice → List (Nat × Nat) → Nat → List Nat
  | [], _, _ => []
  | n :: ns, seen, i => if seen.contains n.lane then laneHeads ns seen (i + 1) else i :: laneHeads ns (n.lane :: seen) (i + 1)

/-- The place of the notice that a pick names among those that may come next; the last of them when the number is too high. -/
def pickPlace (work : List Notice) (k : Nat) : Nat :=
  let heads := laneHeads work [] 0
  (heads[k]?).getD (heads.getLastD 0)

namespace State

/-- A contact change reaches its owner (R11). -/
def ownerContact (s : State) (k : Fin 52) (made : Bool) : State :=
  if h : k.val < 8 then s.pumpFlow ⟨k, h⟩ made
  else if h : k.val < 16 then s.pumpOverload ⟨k - 8, by omega⟩ made
  else if h : k.val < 22 then s.openLimitChange ⟨k - 16, by omega⟩ made
  else if h : k.val < 28 then s.closedLimitChange ⟨k - 22, by omega⟩ made
  else if h : k.val < 34 then s.sealChange ⟨k - 28, by omega⟩ made
  else if h : k.val < 40 then s.driveOverload ⟨k - 34, by omega⟩ made
  else s.auxChange ⟨k - 40, by omega⟩ made

/-- A DRIVER_FAULT report reaches the owner of the output (R15). -/
def ownerFault (s : State) (d : Fin 44) (k : DriverFault) : State :=
  if h : d.val < 8 then s.pumpDriverFault ⟨d, h⟩ d k
  else if h : d.val < 14 then s.barrierDriverFault ⟨d - 8, by omega⟩ d k
  else if h : d.val < 20 then s.barrierDriverFault ⟨d - 14, by omega⟩ d k
  else if h : d.val < 32 then s.feedDriverFault ⟨d - 20, by omega⟩ d k
  else s.feedDriverFault ⟨d - 32, by omega⟩ d k

/-- What the receiver of a notice does. -/
def handle (s : State) : Notice → State
  | .contact k made => s.ownerContact k made
  | .driverFault d k => s.ownerFault d k
  | .sweepSump i => s.sweepSump i
  | .pictureToPev i => s.pictureToPev i
  | .pictureToShs i => s.pictureToShs i
  | .shsChain i c => s.judgeChain i c
  | .feedReport i => s.feedReport i
  | .pumpLeft m i => s.pumpLeft m i
  | .sarPending m d => s.sarPending m d
  | .sarNotPending m => s.sarNotPending m
  | .sarActing m d => s.sarActing m d
  | .sarFreed _ => s.sarFreed
  | .sarTaken _ => s.sarTaken
  | .sarHandedBack _ => s.sarHandedBack
  | .grantPump m => s.grantPump m
  | .darWants b k => s.darWants b k
  | .darNoWant b => s.darNoWant b
  | .darFreed b => s.darFreed b
  | .darTaken _ => s.darTaken
  | .darHandedBack b => s.darHandedBack b
  | .grantBarrier b => s.grantBarrier b
  | .pumpNews m n => s.newsOfPump m n
  | .barrierNews b n => s.newsOfBarrier b n
  | .feedNews f n => s.newsOfFeed f n
  | .fault r => s.capture r
  | .activate p t => advance 9 s p t

/-- Take one notice off the work list. -/
def takeNotice (s : State) (i : Nat) : State := { s with work := s.work.eraseIdx i }

/-- The notices are taken one by one, each pick naming the next, until none is left. The number bounds how many are taken (log 7). -/
def drain : Nat → Picks → State → State
  | 0, _, s => s
  | n + 1, picks, s =>
    let i := pickPlace s.work (picks.headD 0)
    match s.work[i]? with
    | none => s
    | some w => drain n picks.tail ((s.takeNotice i).handle w)

/-- A command comes to rest: every notice is taken, and the attention lines follow (R150). -/
def settled (s : State) (picks : Picks) : State := (drain Config.cascadeBound picks s).updateAttention

/-- A command begins with no notice under way. -/
def begun (s : State) : State := { s with work := [] }

end State

/-- A command's effect on the part: nothing without power (R156, R158); else the effect, with all it gives rise to. -/
def act (s : State) (picks : Picks) (effect : State → State) : Host.Outcome State Fault Refusal :=
  if s.powered then .next ((effect s.begun).settled picks) else .next s

end Sys2Proof.Machine
end

