-- ==== Sys2Proof/Machine/Operands.lean ====
section
/-! DEFINITION. The operands of the requests (sections 9.2 and 8): class and index bytes, order kinds and the target each acts on. -/

namespace Sys2Proof.Machine

/-- The classes of a target, in code order (R143). -/
inductive UnitClass where
  | sump | probe | pump | barrier | feed | rule | port
deriving DecidableEq, Repr

/-- The class a class byte names; a code above 6 names none (R143). -/
def classOf (cls : Byte) : Option UnitClass :=
  match cls.toNat with
  | 0 => some .sump
  | 1 => some .probe
  | 2 => some .pump
  | 3 => some .barrier
  | 4 => some .feed
  | 5 => some .rule
  | 6 => some .port
  | _ => none

/-- An index byte within a class of `n` units (R143). -/
def indexIn (n : Nat) (idx : Byte) : Option (Fin n) := if h : idx.toNat < n then some ⟨idx.toNat, h⟩ else none

/-- The class that a kind acts on (R123): SETTLE acts on PORT. -/
def OrderKind.actsOn : OrderKind → UnitClass
  | .pumpStart | .pumpStop => .pump
  | .barrierClose | .barrierOpen | .barrierHome => .barrier
  | .feedShed | .feedRestore | .feedDefer => .feed
  | .settle => .port

/-- The target of a class and an index, for the classes that orders know; the index of PORT is 0 (R143). -/
def orderTarget (c : UnitClass) (idx : Byte) : Option Target :=
  match c with
  | .pump => (indexIn 8 idx).map .pump
  | .barrier => (indexIn 6 idx).map .barrier
  | .feed => (indexIn 12 idx).map .feed
  | .port => (indexIn 1 idx).map fun _ => .port
  | .sump | .probe | .rule => none

/-- Whether orders may name a class at all (R145). -/
def UnitClass.ordered : UnitClass → Bool
  | .pump | .barrier | .feed | .port => true
  | .sump | .probe | .rule => false

/-- Whether a port may place a kind at all (R123, check 1). -/
def OrderKind.allowed (k : OrderKind) (p : Port) : Bool :=
  match k with
  | .feedDefer => p == .a
  | .feedShed | .feedRestore => p != .c
  | _ => true

/-- The class of an order (R145): 0 URGENT, 1 ROUTINE; another code names none. -/
def urgencyOf (b : Byte) : Option Bool := if b = 0 then some true else if b = 1 then some false else none

/-- Whether a target is an enabled unit, or PORT (R123, check 3). -/
def State.targetEnabled (s : State) : Target → Bool
  | .pump m => s.cfg.pumps[m].enable
  | .barrier b => s.cfg.barriers[b].enable
  | .feed f => s.cfg.feeds[f].enable
  | .port => true

/-- Whether a target is in the lockout set. -/
def State.inLockout (s : State) : Target → Bool
  | .pump m => s.locks.pumps[m]
  | .barrier b => s.locks.barriers[b]
  | _ => false

/-- Whether a target is a pump or barrier, which alone may be locked out. -/
def Target.lockable : Target → Bool
  | .pump _ | .barrier _ => true
  | _ => false

end Sys2Proof.Machine
end

