-- ==== Sys2Proof/Machine/Items.lean ====
section
/-! DEFINITION. The configuration items by their codes (section 10.1): names, ranges, values as signed 16-bit numbers, and reading and writing an
item in the working configuration. -/

namespace Sys2Proof.Machine

/-- Items of a sump, in code order from 0x00. -/
inductive SumpItem where
  | enable | loss | band | area | brim | floor | stop | lead | lag | alert | hh | weight
deriving DecidableEq, Repr

/-- Items of a probe, in code order from 0x10. -/
inductive ProbeItem where
  | enable | span | offset
deriving DecidableEq, Repr

/-- Items of a pump, in code order from 0x20. -/
inductive PumpItem where
  | enable | sump | flow | starts | proving | minRun | minOff
deriving DecidableEq, Repr

/-- Items of a barrier, in code order from 0x30. -/
inductive BarrierItem where
  | enable | sump | closedCount | interval | closeHeight | reopenHeight | closeLead | sealTime
deriving DecidableEq, Repr

/-- Items of a feed, in code order from 0x40. -/
inductive FeedItem where
  | enable | sump | chain | rank | trip | lead | margin | deferrable | maxDeferral | band
deriving DecidableEq, Repr

/-- Items of a trip rule, in code order from 0x50. -/
inductive RuleItem where
  | enable | sump | quantity | threshold | cond | hold | release | action
deriving DecidableEq, Repr

/-- Items of the part: 0x60 to 0x63, the last two read only. -/
inductive PartItem where
  | supplyLimit | ageInterval | checkWord | lockoutMap
deriving DecidableEq, Repr

/-- An item by its code. -/
inductive ItemName where
  | sump (k : SumpItem)
  | probe (k : ProbeItem)
  | pump (k : PumpItem)
  | barrier (k : BarrierItem)
  | feed (k : FeedItem)
  | rule (k : RuleItem)
  | part (k : PartItem)
deriving DecidableEq, Repr

/-- An item of one unit. -/
inductive ItemRef where
  | sump (i : Fin 4) (k : SumpItem)
  | probe (i : Fin 8) (k : ProbeItem)
  | pump (i : Fin 8) (k : PumpItem)
  | barrier (i : Fin 6) (k : BarrierItem)
  | feed (i : Fin 12) (k : FeedItem)
  | rule (i : Fin 16) (k : RuleItem)
  | part (k : PartItem)
deriving DecidableEq, Repr

/-- The item a code names (section 10.1). -/
def itemName (code : Byte) : Option ItemName :=
  match code.toNat with
  | 0x00 => some (.sump .enable)
  | 0x01 => some (.sump .loss)
  | 0x02 => some (.sump .band)
  | 0x03 => some (.sump .area)
  | 0x04 => some (.sump .brim)
  | 0x05 => some (.sump .floor)
  | 0x06 => some (.sump .stop)
  | 0x07 => some (.sump .lead)
  | 0x08 => some (.sump .lag)
  | 0x09 => some (.sump .alert)
  | 0x0A => some (.sump .hh)
  | 0x0B => some (.sump .weight)
  | 0x10 => some (.probe .enable)
  | 0x11 => some (.probe .span)
  | 0x12 => some (.probe .offset)
  | 0x20 => some (.pump .enable)
  | 0x21 => some (.pump .sump)
  | 0x22 => some (.pump .flow)
  | 0x23 => some (.pump .starts)
  | 0x24 => some (.pump .proving)
  | 0x25 => some (.pump .minRun)
  | 0x26 => some (.pump .minOff)
  | 0x30 => some (.barrier .enable)
  | 0x31 => some (.barrier .sump)
  | 0x32 => some (.barrier .closedCount)
  | 0x33 => some (.barrier .interval)
  | 0x34 => some (.barrier .closeHeight)
  | 0x35 => some (.barrier .reopenHeight)
  | 0x36 => some (.barrier .closeLead)
  | 0x37 => some (.barrier .sealTime)
  | 0x40 => some (.feed .enable)
  | 0x41 => some (.feed .sump)
  | 0x42 => some (.feed .chain)
  | 0x43 => some (.feed .rank)
  | 0x44 => some (.feed .trip)
  | 0x45 => some (.feed .lead)
  | 0x46 => some (.feed .margin)
  | 0x47 => some (.feed .deferrable)
  | 0x48 => some (.feed .maxDeferral)
  | 0x49 => some (.feed .band)
  | 0x50 => some (.rule .enable)
  | 0x51 => some (.rule .sump)
  | 0x52 => some (.rule .quantity)
  | 0x53 => some (.rule .threshold)
  | 0x54 => some (.rule .cond)
  | 0x55 => some (.rule .hold)
  | 0x56 => some (.rule .release)
  | 0x57 => some (.rule .action)
  | 0x60 => some (.part .supplyLimit)
  | 0x61 => some (.part .ageInterval)
  | 0x62 => some (.part .checkWord)
  | 0x63 => some (.part .lockoutMap)
  | _ => none

/-- The item of a unit; none when the unit index lies beyond the range of the item's unit. -/
def itemRef (name : ItemName) (unit : Byte) : Option ItemRef :=
  match name with
  | .sump k => (indexIn 4 unit).map (.sump · k)
  | .probe k => (indexIn 8 unit).map (.probe · k)
  | .pump k => (indexIn 8 unit).map (.pump · k)
  | .barrier k => (indexIn 6 unit).map (.barrier · k)
  | .feed k => (indexIn 12 unit).map (.feed · k)
  | .rule k => (indexIn 16 unit).map (.rule · k)
  | .part k => if unit = 0 then some (.part k) else none

/-- Whether an item is read only (section 10.1). -/
def ItemName.readOnly : ItemName → Bool
  | .part .checkWord | .part .lockoutMap => true
  | _ => false

/-- The range of an item (the item tables of the chapters); a condition set takes 0 as well (R47, R154). -/
def itemRange : ItemRef → Int × Int
  | .sump _ .enable => (0, 1)
  | .sump _ .loss => (0, 1)
  | .sump _ .band => (10, 500)
  | .sump _ .area => (1, 100)
  | .sump _ .brim => (100, 3000)
  | .sump _ .floor => (1, 5000)
  | .sump _ .stop | .sump _ .lead | .sump _ .lag | .sump _ .alert | .sump _ .hh => (0, 6000)
  | .sump _ .weight => (1, 15)
  | .probe _ .enable => (0, 1)
  | .probe _ .span => (500, 6000)
  | .probe _ .offset => (0, 3000)
  | .pump _ .enable => (0, 1)
  | .pump _ .sump => (0, 3)
  | .pump _ .flow => (1, 500)
  | .pump _ .starts => (1, 30)
  | .pump _ .proving => (2, 60)
  | .pump _ .minRun => (5, 600)
  | .pump _ .minOff => (5, 600)
  | .barrier _ .enable => (0, 1)
  | .barrier _ .sump => (0, 3)
  | .barrier _ .closedCount => (20, 400)
  | .barrier _ .interval => (100, 2000)
  | .barrier _ .closeHeight | .barrier _ .reopenHeight => (0, 6000)
  | .barrier _ .closeLead => (0, 600)
  | .barrier _ .sealTime => (1, 30)
  | .feed _ .enable => (0, 1)
  | .feed _ .sump => (0, 3)
  | .feed _ .chain => (0, 3)
  | .feed _ .rank => (0, 11)
  | .feed _ .trip => (0, 6000)
  | .feed _ .lead => (0, 3600)
  | .feed _ .margin => (0, 3600)
  | .feed _ .deferrable => (0, 1)
  | .feed _ .maxDeferral => (0, 1800)
  | .feed _ .band => (0, 1000)
  | .rule _ .enable => (0, 1)
  | .rule _ .sump => (0, 3)
  | .rule _ .quantity => (0, 2)
  | .rule _ .threshold => (-32768, 32767)
  | .rule _ .cond => (0, 7)
  | .rule _ .hold => (1, 15)
  | .rule _ .release => (1, 15)
  | .rule _ .action => (0, 3)
  | .part .supplyLimit => (1, 8)
  | .part .ageInterval => (5, 255)
  | .part .checkWord | .part .lockoutMap => (-32768, 32767)

/-- A value brought to the nearer limit of its item's range (R154, step 4). -/
def clampItem (r : ItemRef) (v : Int) : Int := max (itemRange r).1 (min (itemRange r).2 v)

/-! ### Named values (section 10.1): a place in the list that defines it, no as 0 and yes as 1 -/

def boolValue (b : Bool) : Int := if b then 1 else 0
def LossPolicy.code : LossPolicy → Nat
  | .hold => 0
  | .assumeHigh => 1
def Quantity.code : Quantity → Nat
  | .level => 0
  | .inflow => 1
  | .netRise => 2
def RuleAction.code : RuleAction → Nat
  | .note => 0
  | .alert => 1
  | .startAll => 2
  | .closeAll => 3
/-- Bit 0 BELOW, bit 1 AT, bit 2 ABOVE. -/
def CondSet.code (c : CondSet) : Nat := c.below.toNat + 2 * c.at_.toNat + 4 * c.above.toNat

def LossPolicy.ofValue (v : Int) : LossPolicy := if v = 0 then .hold else .assumeHigh
def Quantity.ofValue (v : Int) : Quantity := if v = 0 then .level else if v = 1 then .inflow else .netRise
def RuleAction.ofValue (v : Int) : RuleAction := if v = 0 then .note else if v = 1 then .alert else if v = 2 then .startAll else .closeAll
def CondSet.ofValue (v : Int) : CondSet := ⟨v.toNat.testBit 0, v.toNat.testBit 1, v.toNat.testBit 2⟩
/-- A sump or chain index. -/
def indexOfValue (v : Int) : Fin 4 := if v = 0 then 0 else if v = 1 then 1 else if v = 2 then 2 else 3

/-- The lockout map (section 10.1): bits 0 to 7 pumps, bits 8 to 13 barriers. -/
def lockoutMap (l : Locks) : Nat :=
  ((List.finRange 8).map fun m => if l.pumps[m] then 2 ^ m.val else 0).sum +
    ((List.finRange 6).map fun b => if l.barriers[b] then 2 ^ (8 + b.val) else 0).sum

/-! ### Reading an item -/

def SumpCfg.get (c : SumpCfg) : SumpItem → Int
  | .enable => boolValue c.enable
  | .loss => c.loss.code
  | .band => c.band
  | .area => c.area
  | .brim => c.brim
  | .floor => c.floor
  | .stop => c.stop
  | .lead => c.lead
  | .lag => c.lag
  | .alert => c.alert
  | .hh => c.hh
  | .weight => c.weight
def ProbeCfg.get (c : ProbeCfg) : ProbeItem → Int
  | .enable => boolValue c.enable
  | .span => c.span
  | .offset => c.offset
def PumpCfg.get (c : PumpCfg) : PumpItem → Int
  | .enable => boolValue c.enable
  | .sump => c.sump.val
  | .flow => c.flow
  | .starts => c.starts
  | .proving => c.proving
  | .minRun => c.minRun
  | .minOff => c.minOff
def BarrierCfg.get (c : BarrierCfg) : BarrierItem → Int
  | .enable => boolValue c.enable
  | .sump => c.sump.val
  | .closedCount => c.closedCount
  | .interval => c.interval
  | .closeHeight => c.closeHeight
  | .reopenHeight => c.reopenHeight
  | .closeLead => c.closeLead
  | .sealTime => c.sealTime
def FeedCfg.get (c : FeedCfg) : FeedItem → Int
  | .enable => boolValue c.enable
  | .sump => c.sump.val
  | .chain => c.chain.val
  | .rank => c.rank
  | .trip => c.trip
  | .lead => c.lead
  | .margin => c.margin
  | .deferrable => boolValue c.deferrable
  | .maxDeferral => c.maxDeferral
  | .band => c.band
def RuleCfg.get (c : RuleCfg) : RuleItem → Int
  | .enable => boolValue c.enable
  | .sump => c.sump.val
  | .quantity => c.quantity.code
  | .threshold => c.threshold
  | .cond => c.cond.code
  | .hold => c.hold
  | .release => c.release
  | .action => c.action.code

/-- The value of an item (R153): of the working configuration, or for the read-only items of the stored image and the lockout set. -/
def State.itemValue (s : State) : ItemRef → Int
  | .sump i k => s.cfg.sumps[i].get k
  | .probe i k => s.cfg.probes[i].get k
  | .pump i k => s.cfg.pumps[i].get k
  | .barrier i k => s.cfg.barriers[i].get k
  | .feed i k => s.cfg.feeds[i].get k
  | .rule i k => s.cfg.rules[i].get k
  | .part .supplyLimit => s.cfg.supplyLimit
  | .part .ageInterval => s.cfg.ageInterval
  | .part .checkWord => s.store.word.toInt
  | .part .lockoutMap => lockoutMap s.locks

/-! ### Writing an item -/

def SumpCfg.set (c : SumpCfg) (k : SumpItem) (v : Int) : SumpCfg :=
  match k with
  | .enable => { c with enable := v != 0 }
  | .loss => { c with loss := LossPolicy.ofValue v }
  | .band => { c with band := v.toNat }
  | .area => { c with area := v.toNat }
  | .brim => { c with brim := v.toNat }
  | .floor => { c with floor := v.toNat }
  | .stop => { c with stop := v.toNat }
  | .lead => { c with lead := v.toNat }
  | .lag => { c with lag := v.toNat }
  | .alert => { c with alert := v.toNat }
  | .hh => { c with hh := v.toNat }
  | .weight => { c with weight := v.toNat }
def ProbeCfg.set (c : ProbeCfg) (k : ProbeItem) (v : Int) : ProbeCfg :=
  match k with
  | .enable => { c with enable := v != 0 }
  | .span => { c with span := v.toNat }
  | .offset => { c with offset := v.toNat }
def PumpCfg.set (c : PumpCfg) (k : PumpItem) (v : Int) : PumpCfg :=
  match k with
  | .enable => { c with enable := v != 0 }
  | .sump => { c with sump := indexOfValue v }
  | .flow => { c with flow := v.toNat }
  | .starts => { c with starts := v.toNat }
  | .proving => { c with proving := v.toNat }
  | .minRun => { c with minRun := v.toNat }
  | .minOff => { c with minOff := v.toNat }
def BarrierCfg.set (c : BarrierCfg) (k : BarrierItem) (v : Int) : BarrierCfg :=
  match k with
  | .enable => { c with enable := v != 0 }
  | .sump => { c with sump := indexOfValue v }
  | .closedCount => { c with closedCount := v.toNat }
  | .interval => { c with interval := v.toNat }
  | .closeHeight => { c with closeHeight := v.toNat }
  | .reopenHeight => { c with reopenHeight := v.toNat }
  | .closeLead => { c with closeLead := v.toNat }
  | .sealTime => { c with sealTime := v.toNat }
def FeedCfg.set (c : FeedCfg) (k : FeedItem) (v : Int) : FeedCfg :=
  match k with
  | .enable => { c with enable := v != 0 }
  | .sump => { c with sump := indexOfValue v }
  | .chain => { c with chain := indexOfValue v }
  | .rank => { c with rank := v.toNat }
  | .trip => { c with trip := v.toNat }
  | .lead => { c with lead := v.toNat }
  | .margin => { c with margin := v.toNat }
  | .deferrable => { c with deferrable := v != 0 }
  | .maxDeferral => { c with maxDeferral := v.toNat }
  | .band => { c with band := v.toNat }
/-- An empty condition set disables the rule and leaves the stored set (R47). -/
def RuleCfg.set (c : RuleCfg) (k : RuleItem) (v : Int) : RuleCfg :=
  match k with
  | .enable => { c with enable := v != 0 }
  | .sump => { c with sump := indexOfValue v }
  | .quantity => { c with quantity := Quantity.ofValue v }
  | .threshold => { c with threshold := v }
  | .cond => if v = 0 then { c with enable := false } else { c with cond := CondSet.ofValue v }
  | .hold => { c with hold := v.toNat }
  | .release => { c with release := v.toNat }
  | .action => { c with action := RuleAction.ofValue v }

/-- The working configuration with one item written; the read-only items have no place in it. -/
def Cfg.setItem (c : Cfg) (r : ItemRef) (v : Int) : Cfg :=
  match r with
  | .sump i k => { c with sumps := c.sumps.set i (c.sumps[i].set k v) }
  | .probe i k => { c with probes := c.probes.set i (c.probes[i].set k v) }
  | .pump i k => { c with pumps := c.pumps.set i (c.pumps[i].set k v) }
  | .barrier i k => { c with barriers := c.barriers.set i (c.barriers[i].set k v) }
  | .feed i k => { c with feeds := c.feeds.set i (c.feeds[i].set k v) }
  | .rule i k => { c with rules := c.rules.set i (c.rules[i].set k v) }
  | .part .supplyLimit => { c with supplyLimit := v.toNat }
  | .part .ageInterval => { c with ageInterval := v.toNat }
  | .part .checkWord | .part .lockoutMap => c

end Sys2Proof.Machine
end

