-- ==== Sys2Proof/Machine/Store.lean ====
section
/-! DEFINITION. The Configuration Store (chapter 10): accepting and applying an item, lockouts, the store write, and the load at power-on and RESTART with the
reset state of every block. -/

namespace Sys2Proof.Machine

/-- Five thresholds in strict ascending order (R34). -/
def SumpCfg.ordered (c : SumpCfg) : Bool := decide (c.stop < c.lead ∧ c.lead < c.lag ∧ c.lag < c.alert ∧ c.alert < c.hh)

/-- The reopen height strictly below the close height (R102). -/
def BarrierCfg.ordered (c : BarrierCfg) : Bool := decide (c.reopenHeight < c.closeHeight)

/-- Whether another feed of the chain has the rank of a feed (R120). -/
def Cfg.rankTaken (c : Cfg) (f : Fin 12) : Bool :=
  (List.finRange 12).any fun g => g != f && c.feeds[g].chain == c.feeds[f].chain && c.feeds[g].rank == c.feeds[f].rank

namespace State

/-! ### The item's own check (R154, step 5) -/

/-- The refusal that an item's own rule gives a value; `c` is the configuration with the value written. -/
def itemRefusal (s : State) (r : ItemRef) (c : Cfg) : Option Result :=
  match r with
  | .sump i .stop | .sump i .lead | .sump i .lag | .sump i .alert | .sump i .hh => if c.sumps[i].ordered then none else some .orderViolation
  | .barrier b .closeHeight | .barrier b .reopenHeight => if c.barriers[b].ordered then none else some .orderViolation
  | .barrier b .closedCount | .barrier b .interval => if s.barriers[b].state.travels then some .valueInUse else none
  | .feed f k =>
    if s.feeds[f].state == .shedding || s.feeds[f].state == .restoring then some .valueInUse
    else if (k == .chain || k == .rank) && c.rankTaken f then some .duplicateRank
    else none
  | .part .supplyLimit => if c.supplyLimit < s.sar.count then some .valueInUse else none
  | _ => none

/-! ### Applying an item (R155) -/

/-- The working configuration replaced. -/
def setCfg (s : State) (c : Cfg) : State := { s with cfg := c }

/-- A probe item (R8): also a value that the item already holds. -/
def applyProbe (s : State) (i : Fin 8) (k : ProbeItem) (c : Cfg) : State :=
  let t := s.setCfg c
  match k with
  | .enable =>
    if c.probes[i].enable then if s.probes[i].state = .disabled then t.enableProbe i else t.reproveProbe i else t.disableProbe i
  | .span | .offset => t.reproveProbe i

/-- A sump is disabled (R31, R51, R159). -/
def disableSump (s : State) (i : Fin 4) : State :=
  (((s.emptySump i).each (List.finRange 8) fun t m =>
    if t.cfg.pumps[m].sump == i && t.pumps[m].demand.auto then t.removeAuto m else t).setToken i none 0 false).idleRulesOf i

/-- A sump is enabled (R31, R38, R159). -/
def enableSump (s : State) (i : Fin 4) : State :=
  let t := s.emptySump i
  (t.setSump i { t.sumps[i] with state := .calm }).resetToken i

/-- A sump item (R31, R34). -/
def applySump (s : State) (i : Fin 4) (k : SumpItem) (c : Cfg) : State :=
  let t := s.setCfg c
  match k with
  | .enable =>
    match s.cfg.sumps[i].enable, c.sumps[i].enable with
    | true, false => t.disableSump i
    | false, true => t.enableSump i
    | _, _ => t
  | _ => t

/-- A pump has been moved from one sump to another (R44, R70). DESIGN CHOICE: when a RUNNING token pump past its min run rests as its AUTO is removed, its token
moves (R44) before the departure report (R43) is taken, and that report names the new sump; so it counts no duty in the former one. No rule orders the two
or says which sump the report counts for (log 60). -/
def movePump (s : State) (m : Fin 8) (was : Fin 4) : State :=
  let t := (if s.pumps[m].demand.auto then s.removeAuto m else s).tokenLeaves m was
  if t.cfg.pumps[m].enable then t.tokenTakes m t.cfg.pumps[m].sump else t

/-- A pump item (R44, R64, R69, R70). DESIGN CHOICE: on the disable of a RUNNING token pump the token moves (R44) before the departure report (R43) is
taken, so that report counts no duty; no rule orders the two (log 46). -/
def applyPump (s : State) (m : Fin 8) (k : PumpItem) (c : Cfg) : State :=
  let t := s.setCfg c
  match k with
  | .enable =>
    match s.cfg.pumps[m].enable, c.pumps[m].enable with
    | true, false => (t.disablePump m (s.pumpPending m)).tokenLeaves m c.pumps[m].sump
    | false, true => (t.enablePump m).tokenTakes m c.pumps[m].sump
    | _, _ => t
  | .sump => if c.pumps[m].sump = s.cfg.pumps[m].sump then t else t.movePump m s.cfg.pumps[m].sump
  | .starts => t.capBudget m c.pumps[m].starts
  | _ => t

/-- A barrier item (R102). -/
def applyBarrier (s : State) (b : Fin 6) (k : BarrierItem) (c : Cfg) : State :=
  let t := s.setCfg c
  match k with
  | .enable =>
    match s.cfg.barriers[b].enable, c.barriers[b].enable with
    | true, false => t.disableBarrier b (s.told b)
    | false, true => t.enableBarrier b
    | _, _ => t
  | .closedCount => if c.barriers[b].closedCount = s.cfg.barriers[b].closedCount then t else t.recountBarrier b
  | .interval => if c.barriers[b].interval = s.cfg.barriers[b].interval then t else t.recountBarrier b
  | _ => t

/-- A feed item (R120). A chain or rank written with the value it holds changes nothing (R155). DESIGN CHOICE: after a change of chain the
feeds of the old chain are tested before those of the new one (log 58). -/
def applyFeed (s : State) (f : Fin 12) (k : FeedItem) (c : Cfg) : State :=
  let t := s.setCfg c
  match k with
  | .enable =>
    match s.cfg.feeds[f].enable, c.feeds[f].enable with
    | true, false => t.disableFeed f
    | false, true => t.enableFeed f
    | _, _ => t
  | .chain | .rank =>
    if c.feeds[f].chain = s.cfg.feeds[f].chain ∧ c.feeds[f].rank = s.cfg.feeds[f].rank then t
    else (t.settleChain s.cfg.feeds[f].chain).settleChain c.feeds[f].chain
  | _ => t

/-- An accepted value is handed to the owning block (R155). -/
def applyItem (s : State) (r : ItemRef) (c : Cfg) : State :=
  match r with
  | .sump i k => s.applySump i k c
  | .probe i k => s.applyProbe i k c
  | .pump m k => s.applyPump m k c
  | .barrier b k => s.applyBarrier b k c
  | .feed f k => s.applyFeed f k c
  | .rule t _ => (s.setCfg c).idleRule t
  | .part .supplyLimit => (s.setCfg c).sarDecide
  | .part _ => s.setCfg c

/-! ### The store write (R156) -/

/-- Whether the store state is WRITING. -/
def storeBusy (s : State) : Bool := s.store.writing.isSome

/-- A store write begins: the configuration and the lockout set as they stand, for 40 ms. -/
def beginWrite (s : State) : State := { s with store := { s.store with writing := some ⟨40, ⟨s.cfg, s.locks⟩⟩ } }

/-- The report of a store fault (R151, R156, R158): no unit, no level, detail 0. -/
def storeFault (time : Nat) : FaultReport := ⟨.configStore, none, none, time, .none⟩

/-- A write ends with its read-back (R156): the image stands written; a read-back that disagrees leaves the check word of CONFIG_GET as it was.
DESIGN CHOICE: where the read-back disagrees and the image yet passes its check at the next load (R156, R160), what is stored and loaded is the image that
was being written; the manual does not say what such an image holds (log 66). -/
def endWrite (s : State) (agrees sound : Bool) : State :=
  match s.store.writing with
  | none => s
  | some w =>
    if agrees then { s with store := { s.store with image := w.image, word := Config.checkWord w.image, sound := true, writing := none } }
    else
      { s with
        store := { s.store with image := w.image, sound := sound, writing := none }
        tornCount := if sound then s.tornCount else s.tornCount + 1 }.capture (storeFault s.partTime)

/-- Power is lost (R156, R17): every output drops, and a write under way leaves a torn image. -/
def losePower (s : State) : State :=
  { s with
    powered := false, drivers := Vector.replicate 44 {}
    store := { s.store with sound := s.store.sound && s.store.writing.isNone, writing := none, restartHeld := false }
    tornCount := if s.store.writing.isSome then s.tornCount + 1 else s.tornCount }

/-! ### Lockouts (R157) -/

/-- Membership of a pump or barrier in the lockout set. -/
def setLock (s : State) (t : Target) (v : Bool) : State :=
  match t with
  | .pump m => { s with locks := { s.locks with pumps := s.locks.pumps.set m v } }
  | .barrier b => { s with locks := { s.locks with barriers := s.locks.barriers.set b v } }
  | _ => s

/-- The owner's part of a LOCKOUT (R66, R95) or UNLOCK (R68, R97). -/
def ownerLock (s : State) (t : Target) (v : Bool) : State :=
  match t, v with
  | .pump m, true => s.lockPump m
  | .pump m, false => s.unlockPump m
  | .barrier b, true => s.lockBarrier b
  | .barrier b, false => s.unlockBarrier b
  | _, _ => s

/-- A LOCKOUT or UNLOCK that changes the set (R157): the owner, the store write, CONFIG. -/
def changeLock (s : State) (t : Target) (v : Bool) : State :=
  (((s.setLock t v).ownerLock t v).beginWrite).raise .config (if v then 1 else 2)

/-! ### Loading (R158) and the reset state of the blocks -/

/-- The image a load brings up: the stored one when its check word agrees, else the factory image with an empty lockout set. -/
def loaded (s : State) : Image := if s.store.sound then s.store.image else ⟨Cfg.factory, Locks.none⟩

/-- A probe at reset (R10). -/
def probeReset (c : ProbeCfg) : Probe := { state := if c.enable then .unproven else .disabled }

/-- A pump at reset (R71), before the contacts are taken. -/
def pumpReset (c : PumpCfg) (locked : Bool) : Pump :=
  { state := if locked then .locked else if c.enable then .rest else .off, locked := locked, budget := c.starts
    minOff := if !locked && c.enable then some (c.minOff * 1000) else none }

/-- A port at reset (R147): RESTARTED latched with the source, every mask bit set, and no reply and no request under way; on Port C that is the model's
choice (log 61). -/
def portReset (source : Nat) : PortState := PortState.latch { latches := Vector.replicate 21 0 } .restarted source

/-- The PMC takes the start-up contact picture (R71). -/
def startPumpContacts (s : State) (m : Fin 8) : State :=
  if s.pumps[m].state == .rest && s.made (overloadK m) then s.failPump m .pumpOverload (.pumpState .rest) else s

/-- The SHS takes the start-up contact picture and the items of the loaded image (R121). -/
def startFeedContact (s : State) (f : Fin 12) : State :=
  s.setFeed f { state := if s.made (auxK f) then .live else .shed, items := s.cfg.feeds[f].items }

/-- Every register of the blocks at its reset value, before the start-up contact picture is taken; what a RESTART keeps (the sequence count, the coil's
entry count) is kept. DESIGN CHOICE: a reply being sent on Port C when a held restart takes effect (R156), and a Port C request checked and not yet
answered, are dropped as R147 has it for Ports A and B (log 61). -/
def blank (s : State) (img : Image) (source : Nat) : State :=
  { s with
    powered := true, timeMs := 0, cfg := img.cfg, locks := img.locks
    contacts := Vector.replicate 52 {}, drivers := Vector.replicate 44 {}
    probes := Vector.replicate 8 {}, sumps := Vector.replicate 4 {}, rules := Vector.replicate 16 {}, pumps := Vector.replicate 8 {}
    barriers := Vector.replicate 6 {}, feeds := Vector.replicate 12 {}
    hourLeft := 3600000, sar := {}, dar := {}, coil := { recharge := some 800, entries := s.coil.entries }
    orders := Vector.replicate 3 {}, ageLeft := img.cfg.ageInterval * 1000
    ports := Vector.replicate 3 (portReset source), fcr := {}
    store := { s.store with
                word := if s.store.sound then Config.checkWord s.store.image else Config.tornWord s.tornCount
                writing := none, restartHeld := false }
    restartAtReply := false, work := [] }

/-- The first scan (R12): every accepted state takes the value read. -/
def firstScan (s : State) (contacts : BitVec 52) : State :=
  s.each (List.finRange 52) fun t k => { t with contacts := t.contacts.set k { accepted := contacts.getLsbD k } }

/-- The part comes up (R158, and R10, R12, R17, R33, R44, R51, R71, R82, R103, R121, R135, R147): the image is loaded, every block takes its reset
state, a store fault is reported, and the owners take the start-up contact picture. `source` is that of RESTARTED. -/
def comeUp (s : State) (contacts : BitVec 52) (source : Nat) : State :=
  let t := (s.blank s.loaded source).firstScan contacts
  let u := if s.store.sound then t else t.capture (storeFault 0)
  let u := u.each (List.finRange 8) fun t i => t.setProbe i (probeReset t.cfg.probes[i])
  let u := u.each (List.finRange 8) fun t m => t.setPump m (pumpReset t.cfg.pumps[m] t.locks.pumps[m])
  let u := u.each (List.finRange 6) fun t b => t.modBarrier b fun r => { r with locked := t.locks.barriers[b] }
  let u := u.each (List.finRange 4) fun t i => if t.cfg.sumps[i].enable then (t.resetSump i).resetToken i else t.resetSump i
  let u := u.each (List.finRange 8) startPumpContacts
  let u := u.each (List.finRange 6) barrierFromContacts
  u.each (List.finRange 12) startFeedContact

/-- Power is applied (R158): the sequence count and the coil's entry count begin anew. -/
def powerUp (s : State) (contacts : BitVec 52) : State :=
  { s.losePower with nextSeq := 1, coil := { s.coil with entries := 0 } }.comeUp contacts 0

/-- A RESTART takes effect (R147). -/
def restartNow (s : State) (contacts : BitVec 52) : State := s.comeUp contacts 1

end State

end Sys2Proof.Machine
end

