-- ==== Sys2Proof/Machine/Ports.lean ====
section
/-! DEFINITION. The port controllers (sections 9.1 and 9.2): the receiver, the frame check, the reply to a request, and the link reset that a break causes. -/

namespace Sys2Proof.Machine

/-- What a request's rule answers: the result and the data (R143). -/
structure Answer where
  result : Result
  data : List Byte := []
deriving DecidableEq, Repr

/-- The two ports other than one. -/
def otherPorts : Port → List Port
  | .a => [.b, .c]
  | .b => [.a, .c]
  | .c => [.a, .b]

/-- Bit 0 to 20 of a MASK map (R149). -/
def maskOf (map : BitVec 24) : BitVec 21 := map.extractLsb' 0 21

/-- The length byte of a receive buffer. -/
def lengthByte (buffer : List Byte) : Nat := ((buffer[1]?).getD 0).toNat

/-- The body of a complete frame (R140). -/
def frameBody (buffer : List Byte) : List Byte := (buffer.drop 2).take (lengthByte buffer)

/-- Whether the CRC bytes of a complete frame agree (R141). -/
def frameSound (buffer : List Byte) : Bool :=
  let n := lengthByte buffer
  buffer.drop (2 + n) == be16 (crc16 ((buffer.drop 1).take (1 + n))).toNat

namespace State

/-! ### Replies (R143) -/

/-- The reply of a request as the part stands after its effect. -/
def replyFor (s : State) (p : Port) (code tag : Byte) (ans : Answer) : Reply :=
  { code := code, tag := tag, result := ans.result, free := (s.ordersOf p).free
    attention := (s.port p).attention, faultHeld := s.faultHeld, quiet := s.quiet
    data := if ans.result.refused then [] else ans.data }

/-- The reply is formed and begins on the line: the receiver stands in REPLYING (R140). An overrun latched since the frame of this reply passed stays
noted, so that OVERRUN is latched once for the reply. -/
def reply (s : State) (p : Port) (code tag : Byte) (ans : Answer) : State :=
  s.setPort p { s.port p with
    rx := .replying, buffer := [], checked := none, overrun := (s.port p).overrun && (s.port p).checked.isSome
    reply := some (s.replyFor p code tag ans) }

/-! ### The receiver (R140, R141) -/

/-- A frame is discarded: LINK on that port alone, and SKIPPING, or IDLE after a gap. -/
def discard (s : State) (p : Port) (c : DiscardCause) : State :=
  (s.setPort p { s.port p with rx := if c = .gap then .idle else .skipping, buffer := [] }).latchOn p .link c.code

/-- A frame has passed its check: REPLYING, with its body waiting for its request to be dispatched (R143), by the sender's request command or by a step
on an empty queue (log 26). -/
def acceptFrame (s : State) (p : Port) (body : List Byte) : State :=
  s.setPort p { s.port p with rx := .replying, buffer := [], checked := some body, overrun := false, reply := none }

/-- A body that spells no request is answered BAD_REQUEST at once (R143). -/
def answerBad (s : State) (p : Port) (body : List Byte) : State :=
  if (decodeRequest p body).isNone then s.reply p (body.headD 0) ((body[1]?).getD 0) ⟨.badRequest, []⟩ else s

/-- A byte joins the frame in assembly. -/
def appendByte (s : State) (p : Port) (b : Byte) : State :=
  let buf := (s.port p).buffer ++ [b]
  let n := lengthByte buf
  if buf.length = 2 ∧ (n < 3 ∨ 48 < n) then s.discard p .length
  else if buf.length = 4 + n then
    if frameSound buf then s.acceptFrame p (frameBody buf) else s.discard p .crc
  else s.setPort p { s.port p with buffer := buf }

/-- A byte on a port line, its stop bit at mark (R140). -/
def receive (s : State) (p : Port) (b : Byte) : State :=
  match (s.port p).rx with
  | .idle => if b = 0xC3 then s.setPort p { s.port p with rx := .inFrame, buffer := [b] } else s.discard p .start
  | .inFrame => s.appendByte p b
  | .replying =>
    if (s.port p).overrun then s else (s.setPort p { s.port p with overrun := true }).latchOn p .link DiscardCause.overrun.code
  | .skipping | .broken => s

/-- A BAD_REQUEST reply is formed in the step in which its frame passes, once the attention line stands (R143). -/
def answerChecked (s : State) (p : Port) : State :=
  match (s.port p).checked with
  | some body => if (s.port p).reply.isNone then s.answerBad p body else s
  | none => s

/-- The request that a checked frame spells and that is to be dispatched (R141, R143): that of the first port, in port order, that holds one. -/
def checkedRequest (s : State) : Option Instr := allPorts.findSome? fun p => (s.port p).checked.bind (decodeRequest p)

/-- The line is quiet for more than 5 ms in IN_FRAME (R140). -/
def gapOn (s : State) (p : Port) : State := if (s.port p).rx = .inFrame then s.discard p .gap else s

/-- The line is quiet for more than 5 ms in SKIPPING (R140). -/
def quietOn (s : State) (p : Port) : State :=
  if (s.port p).rx = .skipping then s.setPort p { s.port p with rx := .idle } else s

/-- Whether a reply is being sent. -/
def sending (s : State) (p : Port) : Bool := (s.port p).rx == .replying && (s.port p).reply.isSome

/-- The last byte of a reply is sent (R140); after a RESTART's own reply the restart takes effect (R147). -/
def replyEnds (s : State) (p : Port) (contacts : BitVec 52) : State :=
  if s.sending p then
    if p = .c ∧ s.restartAtReply then s.restartNow contacts
    else s.setPort p { s.port p with rx := .skipping, reply := none, overrun := false }
  else s

/-! ### Breaks (R142) -/

/-- The port controller after a link reset. -/
def afterBreak : PortState := { rx := .broken, latches := Vector.replicate 21 0 }

/-- A port link reset (R139, R142). A RESTART whose reply is broken off with it does not take effect. -/
def linkReset (s : State) (p : Port) : State :=
  let t : State := { s with restartAtReply := s.restartAtReply && p != Port.c }
  ((t.linkResetOrders p).setPort p afterBreak).each (otherPorts p) fun u q => u.latchOn q .portReset p.idx

/-- The line has been at space for 100 ms (R142); one break makes one reset. -/
def breakOn (s : State) (p : Port) : State := if (s.port p).rx = .broken then s else s.linkReset p

/-- The line leaves the space level (R142). -/
def breakOff (s : State) (p : Port) : State :=
  if (s.port p).rx = .broken then s.setPort p { s.port p with rx := .skipping } else s

end State

/-- A request's effect on the part: its rule's effect and answer, all that it gives rise to, and the reply formed from what stands then (R143). -/
def request (s : State) (p : Port) (code tag : Byte) (picks : Picks) (rule : State → State × Answer) : Host.Outcome State Fault Refusal :=
  if s.powered then
    let r := rule s.begun
    .next ((r.1.settled picks).reply p code tag r.2)
  else .next s

end Sys2Proof.Machine
end

