-- ==== Sys2Proof/Machine/Lines.lean ====
section
/-! DEFINITION. The commands of the port lines: bytes, quiet times, ends of replies and breaks (section 9.1). -/

namespace Sys2Proof.Machine

/-- BYTE_RECEIVED (R140). A byte with a framing error is ignored in every receiver state. -/
def execByteReceived (p : Port) (b : Byte) (framingError : Bool) (s : State) : Host.Outcome State Fault Refusal :=
  if s.powered && !framingError then .next (((s.begun.receive p b).settled []).answerChecked p) else .next s

/-- GAP (R140). -/
def execGap (p : Port) (s : State) : Host.Outcome State Fault Refusal := act s [] fun t => t.gapOn p

/-- SKIPPING_QUIET (R140). -/
def execSkippingQuiet (p : Port) (s : State) : Host.Outcome State Fault Refusal := act s [] fun t => t.quietOn p

/-- REPLY_SENT (R140). -/
def execReplySent (p : Port) (contacts : BitVec 52) (picks : Picks) (s : State) : Host.Outcome State Fault Refusal :=
  act s picks fun t => t.replyEnds p contacts

/-- BREAK (R142). -/
def execLineBreak (p : Port) (picks : Picks) (s : State) : Host.Outcome State Fault Refusal := act s picks fun t => t.breakOn p

/-- BREAK_END (R142). -/
def execBreakEnd (p : Port) (s : State) : Host.Outcome State Fault Refusal := act s [] fun t => t.breakOff p

end Sys2Proof.Machine
end

