-- ==== Sys2Proof/Machine/Records.lean ====
section
/-! DEFINITION. The layouts of the records that cross a line (section 9.7). A named value is its place in the list that defines it, a set is its bits, and an absent
value is 0xFF or 0xFFFF. -/

namespace Sys2Proof.Machine

/-! ### Places of named values -/

def ProbeState.code : ProbeState → Nat
  | .disabled => 0
  | .unproven => 1
  | .good => 2
  | .lost => 3
def LevelSource.code : LevelSource → Nat
  | .higherOfTwo => 0
  | .primary => 1
  | .partner => 2
  | .held => 3
  | .assumedHigh => 4
  | .noData => 5
def SumpState.code : SumpState → Nat
  | .calm => 0
  | .alert => 1
  | .flood => 2
def PumpState.code : PumpState → Nat
  | .off => 0
  | .starting => 1
  | .running => 2
  | .rest => 3
  | .failed => 4
  | .locked => 5
def BarrierState.code : BarrierState → Nat
  | .unhomed => 0
  | .openEnd => 1
  | .stopped => 2
  | .closing => 3
  | .opening => 4
  | .homing => 5
  | .closedUnsealed => 6
  | .sealed => 7
  | .fault => 8
  | .locked => 9
def Release.code : Release → Nat
  | .openEnd => 0
  | .halt => 1
def Want.code : Want → Nat
  | .close => 0
  | .home => 1
  | .open_ => 2
  | .none => 3
def FeedState.code : FeedState → Nat
  | .live => 0
  | .warned => 1
  | .deferred => 2
  | .shedWait => 3
  | .shedding => 4
  | .shed => 5
  | .restoreWait => 6
  | .restoring => 7
  | .fault => 8
def ShedCause.code : ShedCause → Nat
  | .predict => 0
  | .hard => 1
  | .port => 2
  | .manual => 3
  | .atStart => 4
def RuleState.code : RuleState → Nat
  | .idle => 0
  | .counting => 1
  | .fired => 2
def CoilOp.code : CoilOp → Nat
  | .shed => 0
  | .restore => 1
def DriverFault.code : DriverFault → Nat
  | .shorted => 0
  | .openLoad => 1
def OrderKind.code : OrderKind → Nat
  | .pumpStart => 0
  | .pumpStop => 1
  | .barrierClose => 2
  | .barrierOpen => 3
  | .barrierHome => 4
  | .feedShed => 5
  | .feedRestore => 6
  | .feedDefer => 7
  | .settle => 8
def Ending.code : Ending → Nat
  | .done => 0
  | .endedShort => 1
  | .disturbed => 2
  | .overridden => 3
  | .tooLate => 4
  | .stale => 5
  | .withdrawn => 6
  | .aborted => 7

/-! ### Sets and small fields -/

/-- A demand or closure set: AUTO, PORT_A, PORT_B, PORT_C from bit 0. -/
def DemandSet.code (d : DemandSet) : Nat := d.auto.toNat + 2 * d.a.toNat + 4 * d.b.toNat + 8 * d.c.toNat
/-- A home set: PORT_A, PORT_B, PORT_C from bit 0. -/
def PortSet.code (d : PortSet) : Nat := d.a.toNat + 2 * d.b.toNat + 4 * d.c.toNat
/-- A shed demand set: AUTO_PREDICT, AUTO_HARD, PORT_A, PORT_B from bit 0. -/
def ShedSet.code (d : ShedSet) : Nat := d.predict.toNat + 2 * d.hard.toNat + 4 * d.a.toNat + 8 * d.b.toNat

/-- A failure kind, or absent. -/
def kindByte (k : Option FaultKind) : Byte := byteOpt (k.map (·.code))

/-- The seconds left of a running timer of milliseconds, truncated. -/
def secondsLeft (t : Option Nat) : Option Nat := t.map (· / 1000)

/-- The latch of an output: CLEAR, SHORTED, OPEN_LOAD (section 1.3). -/
def latchByte : Option DriverFault → Byte
  | none => 0
  | some .shorted => 1
  | some .openLoad => 2

/-- Commanded and energised states and fault latch of an output. -/
def Driver.record (d : Driver) : List Byte := [flagByte d.commanded, flagByte d.energised, latchByte d.latch]

/-! ### Picture record (27 bytes, and 6 for each arrival) -/

/-- Height kind and unit index of an arrival entry; brim, alert and HH name no unit (log 13). -/
def HeightKind.bytes : HeightKind → List Byte
  | .brim => [0, Config.heightUnitByte]
  | .alert => [1, Config.heightUnitByte]
  | .hh => [2, Config.heightUnitByte]
  | .barrier b => [3, byte b]
  | .feed f => [4, byte f]

/-- One arrival entry. -/
def Arrival.record (a : Arrival) : List Byte := a.kind.bytes ++ be16 a.height ++ be16 a.time

/-- One probe in a picture. -/
def ProbeView.record (v : ProbeView) : List Byte := byte v.state.code :: be16Opt v.filtered

namespace State

/-- The sump state field: CALM, ALERT, FLOOD, or 3 DISABLED (R144). -/
def sumpField (s : State) (i : Fin 4) : Byte := if s.cfg.sumps[i].enable then byte s.sumps[i].state.code else 3

/-- The picture record of a sump. -/
def pictureRecord (s : State) (i : Fin 4) : List Byte :=
  let u := s.sumps[i]
  let p := u.picture
  [byte i, s.sumpField i, byteOpt (u.token.map (·.val)), byte (u.duty + 128 * u.leadRan.toNat)] ++ be32 p.time ++ be16Opt p.level ++
    [byte p.source.code, byte (p.disagree.toNat + 2 * p.valid.toNat)] ++ p.primary.record ++ p.partner.record ++
    [byte p.entries, byte p.substituted] ++ beInt p.inflow ++ beInt p.netRise ++ be16 p.running ++ [byte p.arrivals.length] ++
    p.arrivals.flatMap Arrival.record

/-! ### State records -/

/-- The state record of a probe (R9). -/
def probeRecord (s : State) (i : Fin 8) : List Byte :=
  let c := s.cfg.probes[i]
  let p := s.probes[i]
  [flagByte c.enable] ++ be16 c.span ++ be16 c.offset ++ [byte p.state.code] ++ be16Opt p.shown ++
    [byte p.ring.length, byte p.validRun, byte p.invalidRun, flagByte p.wasLost]

/-- The timer of a pump that its record shows (R65): the one that runs; which of min-run and no-flow when both run is open (log 12). -/
def shownTimer (p : Pump) : Option Nat :=
  match p.minRun, p.noFlow with
  | some x, some y => some (if Config.showsNoFlow then y else x)
  | some x, none => some x
  | none, some y => some y
  | none, none =>
    match p.proving with
    | some x => some x
    | none => p.minOff

/-- The state record of a pump (R65). -/
def pumpRecord (s : State) (m : Fin 8) : List Byte :=
  let c := s.cfg.pumps[m]
  let p := s.pumps[m]
  [flagByte c.enable, byte c.sump] ++ be16 c.flow ++ [byte c.starts, byte c.proving] ++ be16 c.minRun ++ be16 c.minOff ++
    [byte p.state.code, kindByte p.failure, byte (p.demand.code + 16 * p.override.toNat), byte p.acting.code, flagByte (s.pumpPending m),
      flagByte p.locked, byte p.budget] ++ be16Opt (secondsLeft (shownTimer p)) ++
    [flagByte p.minRunElapsed, flagByte (s.made (flowK m)), flagByte (s.made (overloadK m))] ++ s.drivers[runD m].record

/-- Slot held, waiting, or neither (R101). -/
def slotByte (s : State) (b : Fin 6) : Byte :=
  if s.dar.slot1 = some b ∨ s.dar.slot2 = some b then 0 else if s.dar.waiting.any (·.1 == b) then 1 else 2

/-- The state record of a barrier (R101). The time is the ms left in the increment or the s left on the seal timer. -/
def barrierRecord (s : State) (b : Fin 6) : List Byte :=
  let c := s.cfg.barriers[b]
  let r := s.barriers[b]
  [flagByte c.enable, byte c.sump] ++ be16 c.closedCount ++ be16 c.interval ++ be16 c.closeHeight ++ be16 c.reopenHeight ++
    be16 c.closeLead ++ [byte c.sealTime, byte (overtravel c.closedCount)] ++ be16 (homeLimit c.closedCount) ++ [byte r.state.code] ++
    bePosition r.position ++ [kindByte r.failure, byte r.closure.code, byte r.acting.code, byte r.release.code, byte r.home.code,
      flagByte r.locked, byte (r.turnWant c.enable).code] ++ be16 r.travel ++
    be16Opt (if r.increment.isSome then r.increment else secondsLeft r.sealTimer) ++ [s.slotByte b, flagByte (s.made (openLimitK b)),
      flagByte (s.made (closedLimitK b)), flagByte (s.made (sealK b)), flagByte (s.made (driveOverloadK b))] ++
    s.drivers[driveCloseD b].record ++ s.drivers[driveOpenD b].record

/-- Queued operation and queue place of a feed, or absent. -/
def queueBytes (s : State) (f : Fin 12) : List Byte :=
  [byteOpt ((s.queuedFor f).map (·.code)), byteOpt (s.coil.queue.findIdx? fun e => e.feed == f)]

/-- The pulse or check in progress of a feed with the ms left, or absent. -/
def coilBytes (s : State) (f : Fin 12) : List Byte :=
  match s.coil.pulse.filter (·.feed == f), s.coil.check.filter (·.feed == f) with
  | some w, _ => (0 : Byte) :: be16 w.left
  | none, some w => (1 : Byte) :: be16 w.left
  | none, none => (0xFF : Byte) :: be16Opt none

/-- The state record of a feed (R119). -/
def feedRecord (s : State) (f : Fin 12) : List Byte :=
  let c := s.cfg.feeds[f]
  let v := s.feeds[f]
  [flagByte c.enable, byte c.sump, byte c.chain, byte c.rank] ++ be16 c.trip ++ be16 c.lead ++ be16 c.margin ++ [flagByte c.deferrable] ++
    be16 c.maxDeferral ++ be16 c.band ++ [byte v.state.code, byte v.demand.code, flagByte v.request] ++ s.queueBytes f ++
    be16Opt v.deferral ++ be16Opt v.preArm ++ [flagByte v.episode, flagByte v.deferralUsed, byte v.clear, byte v.cause.code,
      flagByte v.retry, kindByte v.failure] ++ s.coilBytes f ++ be16Opt s.coil.recharge ++ [flagByte (s.made (auxK f))] ++
    s.drivers[shedCoilD f].record ++ s.drivers[restoreCoilD f].record

/-- The state record of a trip rule (R47). -/
def ruleRecord (s : State) (t : Fin 16) : List Byte :=
  let c := s.cfg.rules[t]
  let r := s.rules[t]
  [flagByte c.enable, byte c.sump, byte c.quantity.code] ++ beInt c.threshold ++ [byte c.cond.code, byte c.hold, byte c.release,
    byte c.action.code, byte r.state.code, byte r.trueCount, byte r.falseCount]

end State

/-! ### Completions, events, faults -/

/-- Target class and index. -/
def Target.bytes : Target → List Byte
  | .pump m => [2, byte m]
  | .barrier b => [3, byte b]
  | .feed f => [4, byte f]
  | .port => [6, 0]

/-- A sequence number in four bytes; past the 32-bit range what travels is open (log 15). -/
def seqBytes (n : Nat) : List Byte := be32 (if n < 4294967296 then n else (Config.wideSequence n).toNat)

/-- A position in a completion: absent, unknown or known. -/
def positionBytes : Option (Option Nat) → List Byte
  | none => be16Opt none
  | some p => bePosition p

/-- The completion record (COLLECT data, 21 bytes). -/
def Completion.record (c : Completion) : List Byte :=
  [byte c.slot] ++ seqBytes c.seq ++ [c.tag, byte c.kind.code] ++ c.target.bytes ++ [if c.urgent then 0 else 1, byte c.ending.code] ++ be32 c.time ++
    [byte (c.detail.held.toNat + 2 * c.detail.unhomed.toNat)] ++ be16Opt c.detail.seconds ++ positionBytes c.detail.position ++
    [kindByte c.detail.fault]

/-- The event report (EVENTS data): each kind whose latch set is not empty, in ascending code. -/
def PortState.report (p : PortState) : List Byte :=
  let kinds := (List.finRange 21).filter fun k => p.latches[k] != 0
  byte kinds.length :: kinds.flatMap fun (k : Fin 21) => byte k :: be16 p.latches[k].toNat

/-- The detail bytes that the detail table of section 9.7 names. -/
def FaultDetail.named : FaultDetail → List Byte
  | .flowAtGrant m => [flagByte m]
  | .runSeconds n => be16 (if n < 65536 then n else (Config.noFlowWide n).toNat)
  | .pumpState st => [byte st.code]
  | .starts n => [byte n]
  | .travel pos st n => bePosition pos ++ [byteOpt (st.map (·.code))] ++ be16Opt n
  | .sealTime n => [byte n]
  | .operation op => [byte op.code]
  | .driver d k => [byte d, byte k.code]
  | .none => [0, 0, 0, 0, 0]

/-- The five detail bytes; those that the table does not name are open (log 14). -/
def FaultDetail.bytes (d : FaultDetail) : List Byte :=
  d.named ++ (List.range (5 - d.named.length)).map fun k => Config.detailPad (d.named.length + k)

/-- Target class and index of a report, both 0xFF without a unit. -/
def unitBytes : Option Target → List Byte
  | some t => t.bytes
  | none => [0xFF, 0xFF]

/-- The fault record (FAULT data, 17 bytes); an empty one carries zeros. -/
def Fcr.bytes (f : Fcr) : List Byte :=
  match f.record with
  | some r => [1, byte r.kind.code] ++ unitBytes r.unit ++ be16Opt r.level ++ be32 r.time ++ r.detail.bytes ++ be16 f.also.toNat
  | none => List.replicate 17 0

/-- The raw codes of a probe (PROBE_RAW data): count, then each code, oldest first. -/
def rawRecord (p : Probe) : List Byte := byte p.raw.length :: p.raw.flatMap be16

end Sys2Proof.Machine
end

