-- ==== Sys2Proof/Machine/Reads.lean ====
section
/-! DEFINITION. The requests that read the part (R144), the event requests (R149) and the clearing of the fault record (R152). -/

namespace Sys2Proof.Machine

/-- An answer with data. -/
def accepted (data : List Byte) : Answer := ⟨.accepted, data⟩

/-- A refusal. -/
def refusal (r : Result) : Answer := ⟨r, []⟩

/-- The answer for an index that may lie out of range. -/
def answerAt {n : Nat} (i : Option (Fin n)) (data : Fin n → List Byte) : Answer :=
  match i with
  | some k => accepted (data k)
  | none => refusal .noTarget

namespace State

/-- PICTURE's answer (R144). -/
def pictureAnswer (s : State) (sump : Byte) : Answer := answerAt (indexIn 4 sump) s.pictureRecord

/-- STATE's answer (R144). -/
def stateAnswer (s : State) (cls idx : Byte) : Answer :=
  match classOf cls with
  | none => refusal .badRequest
  | some .sump | some .port => refusal .badKind
  | some .probe => answerAt (indexIn 8 idx) s.probeRecord
  | some .pump => answerAt (indexIn 8 idx) s.pumpRecord
  | some .barrier => answerAt (indexIn 6 idx) s.barrierRecord
  | some .feed => answerAt (indexIn 12 idx) s.feedRecord
  | some .rule => answerAt (indexIn 16 idx) s.ruleRecord

/-- CONFIG_GET's answer (R153). -/
def configAnswer (s : State) (item unit : Byte) : Answer :=
  match itemName item with
  | none => refusal .badRequest
  | some name =>
    match itemRef name unit with
    | none => refusal .noTarget
    | some r => accepted (beInt (s.itemValue r))

/-- PROBE_RAW's answer (R9, R144): Port C only. -/
def rawAnswer (s : State) (p : Port) (probe : Byte) : Answer :=
  if p = .c then answerAt (indexIn 8 probe) fun i => rawRecord s.probes[i] else refusal .notPermitted

/-- EVENTS (R149): the report, and every latch set of the port emptied. -/
def takeEvents (s : State) (p : Port) : State × Answer :=
  (s.setPort p { s.port p with latches := Vector.replicate 21 0 }, accepted (s.port p).report)

end State

/-- PICTURE (R144). -/
def execPicture (p : Port) (tag sump : Byte) (s : State) : Host.Outcome State Fault Refusal :=
  request s p 0x01 tag [] fun t => (t, t.pictureAnswer sump)

/-- STATE (R144). -/
def execState (p : Port) (tag cls idx : Byte) (s : State) : Host.Outcome State Fault Refusal :=
  request s p 0x02 tag [] fun t => (t, t.stateAnswer cls idx)

/-- CONFIG_GET (R153). -/
def execConfigGet (p : Port) (tag item unit : Byte) (s : State) : Host.Outcome State Fault Refusal :=
  request s p 0x20 tag [] fun t => (t, t.configAnswer item unit)

/-- FAULT (R144, R151). -/
def execFault (p : Port) (tag : Byte) (s : State) : Host.Outcome State Fault Refusal := request s p 0x05 tag [] fun t => (t, accepted t.fcr.bytes)

/-- PROBE_RAW (R9). -/
def execProbeRaw (p : Port) (tag probe : Byte) (s : State) : Host.Outcome State Fault Refusal :=
  request s p 0x25 tag [] fun t => (t, t.rawAnswer p probe)

/-- EVENTS (R149). -/
def execEvents (p : Port) (tag : Byte) (s : State) : Host.Outcome State Fault Refusal := request s p 0x03 tag [] fun t => t.takeEvents p

/-- MASK (R149). -/
def execMask (p : Port) (tag : Byte) (map : BitVec 24) (s : State) : Host.Outcome State Fault Refusal :=
  request s p 0x04 tag [] fun t => (t.setPort p { t.port p with mask := maskOf map }, accepted [])

/-- FAULT_CLEAR (R152). -/
def execFaultClear (p : Port) (tag : Byte) (s : State) : Host.Outcome State Fault Refusal :=
  request s p 0x06 tag [] fun t => ({ t with fcr := {} }, accepted [])

end Sys2Proof.Machine
end

