-- ==== Sys2Proof/Machine/OrderRequests.lean ====
section
/-! DEFINITION. The requests on the order queues (R145): the nine kinds of ORDER, WITHDRAW, ABORT and COLLECT. -/

namespace Sys2Proof.Machine

namespace State

/-- The check of R123 that refuses an order to a known target, in its order from check 3 on. -/
def orderRefusal (s : State) (p : Port) (t : Target) : Option Result :=
  if !s.targetEnabled t then some .noTarget
  else if t.lockable && p != .c && s.inLockout t then some .lockedOut
  else if t.lockable && p == .c && !s.inLockout t then some .notPermitted
  else none

/-- An ORDER that has passed check 4: NO_SLOT, or acceptance with its slot and sequence number (R122, R123). -/
def placeOrder (s : State) (p : Port) (tag : Byte) (kind : OrderKind) (t : Target) (urgent : Bool) (seconds : Nat) : State × Answer :=
  match (s.ordersOf p).lowestFree with
  | none => (s, refusal .noSlot)
  | some slot => (s.acceptOrder p (s.entryOf p slot tag kind t urgent seconds), accepted (byte slot :: seqBytes s.nextSeq))

/-- An ORDER request (R123, R143, R145). -/
def orderRule (s : State) (kind : OrderKind) (p : Port) (tag cls idx urgency : Byte) (seconds : Word16) : State × Answer :=
  match classOf cls, urgencyOf urgency with
  | some c, some u =>
    if !kind.allowed p then (s, refusal .notPermitted)
    else if c ≠ kind.actsOn then (s, refusal .badKind)
    else
      match orderTarget c idx with
      | none => (s, refusal .noTarget)
      | some t =>
        match s.orderRefusal p t with
        | some r => (s, refusal r)
        | none => s.placeOrder p tag kind t u seconds.toNat
  | _, _ => (s, refusal .badRequest)

/-- A request on the queue that names a target (R136, R137, R145). -/
def onTarget (s : State) (cls idx : Byte) (rule : Target → State × Answer) : State × Answer :=
  match classOf cls with
  | none => (s, refusal .badRequest)
  | some c =>
    if !c.ordered then (s, refusal .badKind)
    else
      match orderTarget c idx with
      | none => (s, refusal .noTarget)
      | some t => rule t

/-- WITHDRAW (R136). -/
def withdrawRule (s : State) (p : Port) (cls idx : Byte) : State × Answer :=
  s.onTarget cls idx fun t => (s.withdrawAll p t, accepted [byte (s.waitingOn p t).length])

/-- ABORT (R137). -/
def abortRule (s : State) (p : Port) (cls idx : Byte) : State × Answer :=
  s.onTarget cls idx fun t =>
    match (s.ordersOf p).activeOn t with
    | none => (s, refusal .nothingActive)
    | some e => (if t = .port then s.abortSettles p else s.abortOn p e, accepted [])

/-- COLLECT (R138). -/
def collectRule (s : State) (p : Port) : State × Answer :=
  match (s.ordersOf p).done.head? with
  | none => (s, refusal .empty)
  | some c => (s.dropDone p, accepted c.record)

end State

/-- PUMP_START (R127, R145). -/
def execPumpStart (p : Port) (tag cls idx urgency : Byte) (seconds : Word16) (picks : Picks) (s : State) : Host.Outcome State Fault Refusal :=
  request s p 0x10 tag picks fun t => t.orderRule .pumpStart p tag cls idx urgency seconds

/-- PUMP_STOP (R128, R145). -/
def execPumpStop (p : Port) (tag cls idx urgency : Byte) (seconds : Word16) (picks : Picks) (s : State) : Host.Outcome State Fault Refusal :=
  request s p 0x10 tag picks fun t => t.orderRule .pumpStop p tag cls idx urgency seconds

/-- BARRIER_CLOSE (R129, R145). -/
def execBarrierClose (p : Port) (tag cls idx urgency : Byte) (seconds : Word16) (picks : Picks) (s : State) : Host.Outcome State Fault Refusal :=
  request s p 0x10 tag picks fun t => t.orderRule .barrierClose p tag cls idx urgency seconds

/-- BARRIER_OPEN (R130, R145). -/
def execBarrierOpen (p : Port) (tag cls idx urgency : Byte) (seconds : Word16) (picks : Picks) (s : State) : Host.Outcome State Fault Refusal :=
  request s p 0x10 tag picks fun t => t.orderRule .barrierOpen p tag cls idx urgency seconds

/-- BARRIER_HOME (R131, R145). -/
def execBarrierHome (p : Port) (tag cls idx urgency : Byte) (seconds : Word16) (picks : Picks) (s : State) : Host.Outcome State Fault Refusal :=
  request s p 0x10 tag picks fun t => t.orderRule .barrierHome p tag cls idx urgency seconds

/-- FEED_SHED (R132, R145). -/
def execFeedShed (p : Port) (tag cls idx urgency : Byte) (seconds : Word16) (picks : Picks) (s : State) : Host.Outcome State Fault Refusal :=
  request s p 0x10 tag picks fun t => t.orderRule .feedShed p tag cls idx urgency seconds

/-- FEED_RESTORE (R133, R145). -/
def execFeedRestore (p : Port) (tag cls idx urgency : Byte) (seconds : Word16) (picks : Picks) (s : State) : Host.Outcome State Fault Refusal :=
  request s p 0x10 tag picks fun t => t.orderRule .feedRestore p tag cls idx urgency seconds

/-- FEED_DEFER (R114, R132, R145). -/
def execFeedDefer (p : Port) (tag cls idx urgency : Byte) (seconds : Word16) (picks : Picks) (s : State) : Host.Outcome State Fault Refusal :=
  request s p 0x10 tag picks fun t => t.orderRule .feedDefer p tag cls idx urgency seconds

/-- SETTLE (R134, R145). -/
def execSettle (p : Port) (tag cls idx urgency : Byte) (seconds : Word16) (picks : Picks) (s : State) : Host.Outcome State Fault Refusal :=
  request s p 0x10 tag picks fun t => t.orderRule .settle p tag cls idx urgency seconds

/-- WITHDRAW (R136). -/
def execWithdraw (p : Port) (tag cls idx : Byte) (s : State) : Host.Outcome State Fault Refusal :=
  request s p 0x11 tag [] fun t => t.withdrawRule p cls idx

/-- ABORT (R137). -/
def execAbort (p : Port) (tag cls idx : Byte) (picks : Picks) (s : State) : Host.Outcome State Fault Refusal :=
  request s p 0x12 tag picks fun t => t.abortRule p cls idx

/-- COLLECT (R138). -/
def execCollect (p : Port) (tag : Byte) (s : State) : Host.Outcome State Fault Refusal := request s p 0x13 tag [] fun t => t.collectRule p

end Sys2Proof.Machine
end

