-- ==== Sys2Proof/Machine/Service.lean ====
section
/-! DEFINITION. The requests reserved to Port C (R146): CONFIG_SET, LOCKOUT, UNLOCK, CLEAR_FAILURE and RESTART. -/

namespace Sys2Proof.Machine

namespace State

/-- CONFIG_SET on an item of a unit, from check 2 of R154 on. -/
def writeItem (s : State) (r : ItemRef) (value : Int) : State × Answer :=
  if s.storeBusy then (s, refusal .busy)
  else if !s.quiet then (s, refusal .notQuiet)
  else
    let v := clampItem r value
    let c := s.cfg.setItem r v
    match s.itemRefusal r c with
    | some x => (s, refusal x)
    | none => ((s.applyItem r c).beginWrite.raise .config 0, ⟨if v = value then .accepted else .clamped, beInt v⟩)

/-- CONFIG_SET (R143, R146, R154). -/
def configSetRule (s : State) (p : Port) (item unit : Byte) (value : Word16) : State × Answer :=
  match itemName item with
  | none => (s, refusal .badRequest)
  | some name =>
    if name.readOnly then (s, refusal .badRequest)
    else if p ≠ .c then (s, refusal .notPermitted)
    else
      match itemRef name unit with
      | none => (s, refusal .noTarget)
      | some r => s.writeItem r value.toInt

/-- The unit that a service request names (R146): its class must be one that the request acts on. -/
def serviceTarget (s : State) (p : Port) (cls idx : Byte) (ok : UnitClass → Bool) (rule : Target → State × Answer) : State × Answer :=
  match classOf cls with
  | none => (s, refusal .badRequest)
  | some c =>
    if p ≠ .c then (s, refusal .notPermitted)
    else if !ok c then (s, refusal .badKind)
    else
      match orderTarget c idx with
      | none => (s, refusal .noTarget)
      | some t => rule t

/-- LOCKOUT or UNLOCK (R157): one that does not change the set is answered ACCEPTED and changes nothing. -/
def lockRule (s : State) (p : Port) (cls idx : Byte) (v : Bool) : State × Answer :=
  s.serviceTarget p cls idx (fun c => c == .pump || c == .barrier) fun t =>
    if s.storeBusy then (s, refusal .busy)
    else if s.inLockout t = v then (s, accepted [])
    else (s.changeLock t v, accepted [])

/-- The owner of a failed unit takes a clear (R62, R94, R118); none when the unit has not failed. -/
def clearUnit (s : State) (t : Target) : Option State :=
  match t with
  | .pump m => if s.pumps[m].state = .failed then some (s.clearPump m) else none
  | .barrier b => if s.barriers[b].state = .fault then some (s.clearBarrier b) else none
  | .feed f => if s.feeds[f].state = .fault then some (s.clearFeed f) else none
  | .port => none

/-- CLEAR_FAILURE (R146). -/
def clearRule (s : State) (p : Port) (cls idx : Byte) : State × Answer :=
  s.serviceTarget p cls idx (fun c => c == .pump || c == .barrier || c == .feed) fun t =>
    match s.clearUnit t with
    | some u => (u, accepted [1])
    | none => (s, accepted [0])

/-- RESTART (R147, R156, R160): it waits for the end of its reply, or for the end of the write in progress. -/
def restartRule (s : State) (p : Port) : State × Answer :=
  if p ≠ .c then (s, refusal .notPermitted)
  else if s.storeBusy then ({ s with store := { s.store with restartHeld := true } }, accepted [])
  else ({ s with restartAtReply := true }, accepted [])

end State

/-- CONFIG_SET (R154). -/
def execConfigSet (p : Port) (tag item unit : Byte) (value : Word16) (picks : Picks) (s : State) : Host.Outcome State Fault Refusal :=
  request s p 0x21 tag picks fun t => t.configSetRule p item unit value

/-- LOCKOUT (R157). -/
def execLockout (p : Port) (tag cls idx : Byte) (picks : Picks) (s : State) : Host.Outcome State Fault Refusal :=
  request s p 0x22 tag picks fun t => t.lockRule p cls idx true

/-- UNLOCK (R157). -/
def execUnlock (p : Port) (tag cls idx : Byte) (picks : Picks) (s : State) : Host.Outcome State Fault Refusal :=
  request s p 0x23 tag picks fun t => t.lockRule p cls idx false

/-- CLEAR_FAILURE (R146). -/
def execClearFailure (p : Port) (tag cls idx : Byte) (picks : Picks) (s : State) : Host.Outcome State Fault Refusal :=
  request s p 0x24 tag picks fun t => t.clearRule p cls idx

/-- RESTART (R147). -/
def execRestart (p : Port) (tag : Byte) (s : State) : Host.Outcome State Fault Refusal := request s p 0x26 tag [] fun t => t.restartRule p

end Sys2Proof.Machine
end

