-- ==== Sys2Proof/Machine/Terminals.lean ====
section
/-! DEFINITION. The commands of the supply and the field terminals: power, sampling instants, scans, driver faults and sweeps. -/

namespace Sys2Proof.Machine

/-- One input at a scan (R11). -/
def Contact.scan (c : Contact) (reads : Bool) : Contact :=
  if reads == c.accepted then { c with count := 0 }
  else if c.count < 2 then { c with count := c.count + 1 }
  else { accepted := reads, count := 0 }

namespace State

/-- Every input compared with its reading (R11). -/
def scanInputs (s : State) (readings : BitVec 52) : State :=
  s.each (List.finRange 52) fun t k => { t with contacts := t.contacts.set k (t.contacts[k].scan (readings.getLsbD k)) }

/-- A scan (R11): each accepted change is delivered to its owner. -/
def scanAll (s : State) (readings : BitVec 52) : State :=
  let t := s.scanInputs readings
  t.each (List.finRange 52) fun u k => u.emitIf (s.contacts[k].accepted != t.contacts[k].accepted) (.contact k t.contacts[k].accepted)

end State

/-- POWER_ON (R158). -/
def execPowerOn (contacts : BitVec 52) (picks : Picks) (s : State) : Host.Outcome State Fault Refusal :=
  .next ((s.begun.powerUp contacts).settled picks)

/-- POWER_LOSS (R156). -/
def execPowerLoss (s : State) : Host.Outcome State Fault Refusal := .next s.begun.losePower

/-- SAMPLING_INSTANT (R1). -/
def execSamplingInstant (currents : Vector Nat 8) (s : State) : Host.Outcome State Fault Refusal := act s [] fun t => t.sampleAll currents

/-- SCAN (R11). -/
def execScan (readings : BitVec 52) (picks : Picks) (s : State) : Host.Outcome State Fault Refusal := act s picks fun t => t.scanAll readings

/-- SHORTED (R15). -/
def execShorted (output : Fin 44) (picks : Picks) (s : State) : Host.Outcome State Fault Refusal :=
  act s picks fun t => t.driverTrip output .shorted

/-- OPEN_LOAD (R15). -/
def execOpenLoad (output : Fin 44) (picks : Picks) (s : State) : Host.Outcome State Fault Refusal :=
  act s picks fun t => t.driverTrip output .openLoad

/-- SWEEP (R18). -/
def execSweep (picks : Picks) (s : State) : Host.Outcome State Fault Refusal := act s picks fun t => t.sweepAll

end Sys2Proof.Machine
end

