-- ==== Sys2Proof/Machine/Timers.lean ====
section
/-! DEFINITION. The commands of the timers: each is the expiry of one timer. An expiry acts whenever its timer runs; one that meets a stopped timer changes
nothing (log 8). -/

namespace Sys2Proof.Machine

namespace State

/-- The hour reload (R64): every budget is set to its starts per hour, and the timer runs its next 3600 s. -/
def reloadAll (s : State) : State := { s with hourLeft := 3600000 }.each (List.finRange 8) reloadPump

/-- The age timer's expiry (R135): the queues age, and the timer restarts with the interval as it stands. -/
def ageTimerExpires (s : State) : State := { s with ageLeft := s.cfg.ageInterval * 1000 }.ageExpires

/-- A store write ends, and a held restart takes effect (R156, R160). -/
def writeEnds (s : State) (agrees sound : Bool) (contacts : BitVec 52) : State :=
  if s.storeBusy then
    let t := s.endWrite agrees sound
    if s.store.restartHeld then t.restartNow contacts else t
  else s

end State

/-- PROVING_TIMER_EXPIRY (R55). -/
def execProvingTimerExpiry (m : Fin 8) (picks : Picks) (s : State) : Host.Outcome State Fault Refusal := act s picks fun t => t.provingExpires m

/-- MIN_RUN_TIMER_EXPIRY (R56). -/
def execMinRunTimerExpiry (m : Fin 8) (picks : Picks) (s : State) : Host.Outcome State Fault Refusal := act s picks fun t => t.minRunExpires m

/-- NO_FLOW_TIMER_EXPIRY (R57). -/
def execNoFlowTimerExpiry (m : Fin 8) (picks : Picks) (s : State) : Host.Outcome State Fault Refusal := act s picks fun t => t.noFlowExpires m

/-- MIN_OFF_TIMER_EXPIRY (R58). -/
def execMinOffTimerExpiry (m : Fin 8) (picks : Picks) (s : State) : Host.Outcome State Fault Refusal := act s picks fun t => t.minOffExpires m

/-- HOUR_RELOAD (R64). -/
def execHourReload (picks : Picks) (s : State) : Host.Outcome State Fault Refusal := act s picks fun t => t.reloadAll

/-- INCREMENT_TIMER_EXPIRY (R86). -/
def execIncrementTimerExpiry (b : Fin 6) (picks : Picks) (s : State) : Host.Outcome State Fault Refusal :=
  act s picks fun t => t.incrementExpires b

/-- SEAL_TIMER_EXPIRY (R89). -/
def execSealTimerExpiry (b : Fin 6) (picks : Picks) (s : State) : Host.Outcome State Fault Refusal := act s picks fun t => t.sealExpires b

/-- PULSE_END (R110). -/
def execPulseEnd (picks : Picks) (s : State) : Host.Outcome State Fault Refusal := act s picks fun t => t.pulseEnds

/-- FEEDBACK_CHECK (R111). -/
def execFeedbackCheck (picks : Picks) (s : State) : Host.Outcome State Fault Refusal := act s picks fun t => t.checkDue

/-- RECHARGE_TIMER_EXPIRY (R110). -/
def execRechargeTimerExpiry (picks : Picks) (s : State) : Host.Outcome State Fault Refusal := act s picks fun t => t.rechargeExpires

/-- DEFERRAL_EXPIRY (R115). -/
def execDeferralExpiry (f : Fin 12) (picks : Picks) (s : State) : Host.Outcome State Fault Refusal := act s picks fun t => t.deferralExpires f

/-- PRE_ARM_EXPIRY (R115). -/
def execPreArmExpiry (f : Fin 12) (s : State) : Host.Outcome State Fault Refusal := act s [] fun t => t.preArmExpires f

/-- AGE_TIMER_EXPIRY (R135). -/
def execAgeTimerExpiry (picks : Picks) (s : State) : Host.Outcome State Fault Refusal := act s picks fun t => t.ageTimerExpires

/-- WRITE_END (R156). -/
def execWriteEnd (agrees sound : Bool) (contacts : BitVec 52) (picks : Picks) (s : State) : Host.Outcome State Fault Refusal :=
  act s picks fun t => t.writeEnds agrees sound contacts

end Sys2Proof.Machine
end

