-- ==== Sys2Proof/Machine/Dispatch.lean ====
section
/-! DEFINITION. One arm per command. -/

namespace Sys2Proof.Machine

def exec (i : Instr) (s : State) : Host.Outcome State Fault Refusal :=
  match i with
  | .powerOn contacts picks => Sys2Proof.Machine.execPowerOn contacts picks s
  | .samplingInstant currents => Sys2Proof.Machine.execSamplingInstant currents s
  | .scan readings picks => Sys2Proof.Machine.execScan readings picks s
  | .shorted output picks => Sys2Proof.Machine.execShorted output picks s
  | .openLoad output picks => Sys2Proof.Machine.execOpenLoad output picks s
  | .sweep picks => Sys2Proof.Machine.execSweep picks s
  | .provingTimerExpiry pump picks => Sys2Proof.Machine.execProvingTimerExpiry pump picks s
  | .minRunTimerExpiry pump picks => Sys2Proof.Machine.execMinRunTimerExpiry pump picks s
  | .noFlowTimerExpiry pump picks => Sys2Proof.Machine.execNoFlowTimerExpiry pump picks s
  | .minOffTimerExpiry pump picks => Sys2Proof.Machine.execMinOffTimerExpiry pump picks s
  | .hourReload picks => Sys2Proof.Machine.execHourReload picks s
  | .incrementTimerExpiry barrier picks => Sys2Proof.Machine.execIncrementTimerExpiry barrier picks s
  | .sealTimerExpiry barrier picks => Sys2Proof.Machine.execSealTimerExpiry barrier picks s
  | .pulseEnd picks => Sys2Proof.Machine.execPulseEnd picks s
  | .feedbackCheck picks => Sys2Proof.Machine.execFeedbackCheck picks s
  | .rechargeTimerExpiry picks => Sys2Proof.Machine.execRechargeTimerExpiry picks s
  | .deferralExpiry feed picks => Sys2Proof.Machine.execDeferralExpiry feed picks s
  | .preArmExpiry feed => Sys2Proof.Machine.execPreArmExpiry feed s
  | .ageTimerExpiry picks => Sys2Proof.Machine.execAgeTimerExpiry picks s
  | .writeEnd agrees sound contacts picks => Sys2Proof.Machine.execWriteEnd agrees sound contacts picks s
  | .byteReceived port byte framingError => Sys2Proof.Machine.execByteReceived port byte framingError s
  | .gap port => Sys2Proof.Machine.execGap port s
  | .skippingQuiet port => Sys2Proof.Machine.execSkippingQuiet port s
  | .replySent port contacts picks => Sys2Proof.Machine.execReplySent port contacts picks s
  | .lineBreak port picks => Sys2Proof.Machine.execLineBreak port picks s
  | .breakEnd port => Sys2Proof.Machine.execBreakEnd port s
  | .picture port tag sump => Sys2Proof.Machine.execPicture port tag sump s
  | .state port tag cls idx => Sys2Proof.Machine.execState port tag cls idx s
  | .configGet port tag item unit => Sys2Proof.Machine.execConfigGet port tag item unit s
  | .fault port tag => Sys2Proof.Machine.execFault port tag s
  | .probeRaw port tag probe => Sys2Proof.Machine.execProbeRaw port tag probe s
  | .events port tag => Sys2Proof.Machine.execEvents port tag s
  | .mask port tag map => Sys2Proof.Machine.execMask port tag map s
  | .faultClear port tag => Sys2Proof.Machine.execFaultClear port tag s
  | .pumpStart port tag cls idx urgency seconds picks => Sys2Proof.Machine.execPumpStart port tag cls idx urgency seconds picks s
  | .pumpStop port tag cls idx urgency seconds picks => Sys2Proof.Machine.execPumpStop port tag cls idx urgency seconds picks s
  | .barrierClose port tag cls idx urgency seconds picks => Sys2Proof.Machine.execBarrierClose port tag cls idx urgency seconds picks s
  | .barrierOpen port tag cls idx urgency seconds picks => Sys2Proof.Machine.execBarrierOpen port tag cls idx urgency seconds picks s
  | .barrierHome port tag cls idx urgency seconds picks => Sys2Proof.Machine.execBarrierHome port tag cls idx urgency seconds picks s
  | .feedShed port tag cls idx urgency seconds picks => Sys2Proof.Machine.execFeedShed port tag cls idx urgency seconds picks s
  | .feedRestore port tag cls idx urgency seconds picks => Sys2Proof.Machine.execFeedRestore port tag cls idx urgency seconds picks s
  | .feedDefer port tag cls idx urgency seconds picks => Sys2Proof.Machine.execFeedDefer port tag cls idx urgency seconds picks s
  | .settle port tag cls idx urgency seconds picks => Sys2Proof.Machine.execSettle port tag cls idx urgency seconds picks s
  | .withdraw port tag cls idx => Sys2Proof.Machine.execWithdraw port tag cls idx s
  | .abort port tag cls idx picks => Sys2Proof.Machine.execAbort port tag cls idx picks s
  | .collect port tag => Sys2Proof.Machine.execCollect port tag s
  | .configSet port tag item unit value picks => Sys2Proof.Machine.execConfigSet port tag item unit value picks s
  | .lockout port tag cls idx picks => Sys2Proof.Machine.execLockout port tag cls idx picks s
  | .unlock port tag cls idx picks => Sys2Proof.Machine.execUnlock port tag cls idx picks s
  | .clearFailure port tag cls idx picks => Sys2Proof.Machine.execClearFailure port tag cls idx picks s
  | .restart port tag => Sys2Proof.Machine.execRestart port tag s
  | .powerLoss => Sys2Proof.Machine.execPowerLoss s

end Sys2Proof.Machine
end

