-- ==== Sys2Proof/Safety.lean ====
section
/-! DEFINITION. What the claims about the part speak of: the ground that the notices of a command never touch, the invariants of the chapters, latched events, and
runs of several commands. -/

namespace Sys2Proof.Machine

/-- The state that only a command itself changes, never a notice that it gives rise to: power, part time, the configuration, the lockout set, probes and
contacts, the sequence count, the hour and age timers, the store, and the queue of commands. -/
structure Ground where
  powered : Bool
  timeMs : Nat
  cfg : Cfg
  locks : Locks
  probes : Vector Probe 8
  contacts : Vector Contact 52
  hourLeft : Nat
  nextSeq : Nat
  ageLeft : Nat
  store : Store
  restartAtReply : Bool
  tornCount : Nat
  pending : List Instr
deriving DecidableEq, Repr

/-- The ground of a state. -/
def State.ground (s : State) : Ground :=
  ⟨s.powered, s.timeMs, s.cfg, s.locks, s.probes, s.contacts, s.hourLeft, s.nextSeq, s.ageLeft, s.store, s.restartAtReply, s.tornCount,
    s.pending⟩

/-- Whether an event stands latched on a port (R148). -/
def State.latched (s : State) (p : Port) (k : EventKind) (src : Nat) : Bool := (s.port p).latches[k.code].getLsbD src

/-- Whether an event stands latched on every port. -/
def State.latchedAll (s : State) (k : EventKind) (src : Nat) : Bool := s.latched .a k src && s.latched .b k src && s.latched .c k src

/-- The ports stand as they did but for exactly these events, latched on every port (R148). -/
def State.Raised (s t : State) (events : List (EventKind × Nat)) : Prop :=
  (∀ p k i, t.latched p k i = (s.latched p k i || events.contains (k, i))) ∧ ∀ p, t.port p = { s.port p with latches := (t.port p).latches }

/-- The ORDER of a kind (R145). -/
def orderCmd (kind : OrderKind) (p : Port) (tag cls idx urgency : Byte) (seconds : Word16) (picks : Picks) : Instr :=
  match kind with
  | .pumpStart => .pumpStart p tag cls idx urgency seconds picks
  | .pumpStop => .pumpStop p tag cls idx urgency seconds picks
  | .barrierClose => .barrierClose p tag cls idx urgency seconds picks
  | .barrierOpen => .barrierOpen p tag cls idx urgency seconds picks
  | .barrierHome => .barrierHome p tag cls idx urgency seconds picks
  | .feedShed => .feedShed p tag cls idx urgency seconds picks
  | .feedRestore => .feedRestore p tag cls idx urgency seconds picks
  | .feedDefer => .feedDefer p tag cls idx urgency seconds picks
  | .settle => .settle p tag cls idx urgency seconds picks

/-- An order that stands, in its port's queue or, completed, in its completion list (R122, R125). -/
def State.Holds (s : State) (p : Port) (seq slot : Nat) (tag : Byte) (kind : OrderKind) (target : Target) : Prop :=
  (∃ e ∈ (s.ordersOf p).queue, e.seq = seq ∧ e.slot = slot ∧ e.tag = tag ∧ e.kind = kind ∧ e.target = target) ∨
    ∃ c ∈ (s.ordersOf p).done, c.seq = seq ∧ c.slot = slot ∧ c.tag = tag ∧ c.kind = kind ∧ c.target = target

/-! ### Invariants -/

/-- Every attention line follows its list, latches and mask (R150). -/
def State.LinesRight (s : State) : Prop := ∀ p : Port, (s.port p).attention = s.attentionOf p

/-- A configuration whose ordered items are in order: thresholds ascending (R34), reopen heights below close heights (R102), ranks unique in their chains
(R120). -/
def Cfg.Ordered (c : Cfg) : Prop :=
  (∀ i : Fin 4, c.sumps[i].ordered = true) ∧ (∀ b : Fin 6, c.barriers[b].ordered = true) ∧ ∀ f : Fin 12, c.rankTaken f = false

/-- The working configuration, the stored image and an image being written are in order. -/
def State.ConfigOrdered (s : State) : Prop :=
  s.cfg.Ordered ∧ s.store.image.cfg.Ordered ∧ ∀ w : Writing, s.store.writing = some w → w.image.cfg.Ordered

/-- The outputs of a pair are never both commanded ON; an energised output is commanded ON with a clear latch (R14, R16). -/
def State.PairsApart (s : State) : Prop :=
  (∀ d e : Fin 44, partnerD d = some e → ¬(s.drivers[d].commanded = true ∧ s.drivers[e].commanded = true)) ∧
    ∀ d : Fin 44, s.drivers[d].energised = true → s.drivers[d].commanded = true ∧ s.drivers[d].latch = none

/-- One port's slots (R122): at most eight in use, none twice, each below 8. -/
def PortOrders.SlotsRight (o : PortOrders) : Prop := o.queue.length + o.done.length ≤ 8 ∧ o.used.Nodup ∧ ∀ n ∈ o.used, n < 8

/-- The slots of the three ports (R122). -/
def State.SlotsRight (s : State) : Prop := ∀ p : Port, (s.ordersOf p).SlotsRight

/-- The sequence numbers of each queue are distinct and below the next one (R122). -/
def State.SeqsRight (s : State) : Prop :=
  ∀ p : Port, ((s.ordersOf p).queue.map (·.seq)).Nodup ∧ ∀ e ∈ (s.ordersOf p).queue, e.seq < s.nextSeq

/-- One port's SETTLEs as R134 leaves them: each names PORT and waits on exactly the entries before it; an order of another kind has no settle set. -/
def PortOrders.SettlesRight (o : PortOrders) : Prop :=
  (∀ before x after, o.queue = before ++ x :: after → x.settle = if x.kind = .settle then before.map (·.seq) else []) ∧
    ∀ x ∈ o.queue, x.kind = .settle → x.target = .port

/-- The SETTLEs of the three ports (R134). -/
def State.SettlesRight (s : State) : Prop := ∀ p : Port, (s.ordersOf p).SettlesRight

/-- Every pump and barrier record has the locked flag of the lockout set (sections 4.1 and 6.1). -/
def State.LocksAgree (s : State) : Prop :=
  (∀ m : Fin 8, s.pumps[m].locked = s.locks.pumps[m]) ∧ ∀ b : Fin 6, s.barriers[b].locked = s.locks.barriers[b]

/-- One probe's rings and runs (R1, R4, R5, R6): a GOOD probe holds a full ring. -/
def Probe.Right (p : Probe) : Prop :=
  p.ring.length ≤ 8 ∧ p.raw.length ≤ 8 ∧ (∀ l ∈ p.ring, l ≤ 6000) ∧ (p.state = .good → p.ring.length = 8) ∧
    (p.state = .unproven → p.validRun ≤ p.ring.length ∧ p.validRun < 8) ∧ p.invalidRun < 4

/-- Every probe's rings and runs. -/
def State.ProbesRight (s : State) : Prop := ∀ i : Fin 8, s.probes[i].Right

/-- Every history ring holds at most 16 entries (R22). -/
def State.RingsBounded (s : State) : Prop := ∀ i : Fin 4, s.sumps[i].ring.length ≤ 16

/-- The state in which a feed waits for an operation of its coil, and the state of its pulse and its check (R110, R111). -/
def CoilOp.waitState : CoilOp → FeedState
  | .shed => .shedWait
  | .restore => .restoreWait
def CoilOp.pulseState : CoilOp → FeedState
  | .shed => .shedding
  | .restore => .restoring

/-- The coil queue, the pulse and the pending check, against the states of their feeds (R110, R111). -/
def State.CoilRight (s : State) : Prop :=
  (s.coil.queue.map (·.feed)).Nodup ∧ (∀ e ∈ s.coil.queue, s.feeds[e.feed].state = e.op.waitState) ∧
    (∀ w, s.coil.pulse = some w ∨ s.coil.check = some w → s.feeds[w.feed].state = w.op.pulseState) ∧
    ∀ v w, s.coil.pulse = some v → s.coil.check = some w → v.feed ≠ w.feed

/-- The part brought up from what the store may hold: the commands at which a load can take place (R147, R156, R158). -/
def loads : Instr → Bool
  | .powerOn .. | .replySent .. | .writeEnd .. => true
  | _ => false

/-- Run commands one after another, as long as each answers a next state. -/
def runAll : List Instr → State → Option State
  | [], s => some s
  | c :: cs, s =>
    match exec c s with
    | .next t => runAll cs t
    | .fault _ => none
    | .refused _ => none

/-- The bytes of a frame, received one by one without framing errors. -/
def bytesOn (p : Port) (frame : List Byte) : List Instr := frame.map fun b => .byteReceived p b false

/-- The heights that the arrival list of a sump holds, in its order (R29): brim, alert, HH, its enabled barriers' close heights, its enabled feeds' trip
heights. -/
def Cfg.heights (c : Cfg) (i : Fin 4) : List (HeightKind × Nat) :=
  [(.brim, c.sumps[i].brim), (.alert, c.sumps[i].alert), (.hh, c.sumps[i].hh)] ++
    ((List.finRange 6).flatMap fun (b : Fin 6) =>
      if c.barriers[b].enable = true ∧ c.barriers[b].sump = i then [(.barrier b, c.barriers[b].closeHeight)] else []) ++
    (List.finRange 12).flatMap fun (f : Fin 12) =>
      if c.feeds[f].enable = true ∧ c.feeds[f].sump = i then [(.feed f, c.feeds[f].trip)] else []

/-- A feed record with the items of a configuration in force (R120): its sump, trip height, lead time, warn margin and restore band. -/
def Feed.taking (v : Feed) (c : FeedCfg) : Feed :=
  { v with items := { sump := c.sump, trip := c.trip, lead := c.lead, margin := c.margin, band := c.band } }

/-- What a barrier of an image finds at the start (R103): its state, its position and its failure kind, from bit k of `contacts` for input Kk.
MODEL'S CHOICE (log 51): with both limits and the overload MADE the fault is BARRIER_NO_LIMIT alone. -/
def Image.barrierStart (img : Image) (contacts : BitVec 52) (b : Fin 6) : BarrierState × Option Nat × Option FaultKind :=
  let atOpen := contacts.getLsbD (16 + b)
  let atClosed := contacts.getLsbD (22 + b)
  let position := if atOpen && atClosed then none else if atOpen then some 0 else if atClosed then some img.cfg.barriers[b].closedCount else none
  if img.locks.barriers[b] then (.locked, position, none)
  else if atOpen && atClosed then (.fault, none, some .barrierNoLimit)
  else if img.cfg.barriers[b].enable && contacts.getLsbD (34 + b) then (.fault, position, some .barrierOverload)
  else if atOpen then (.openEnd, position, none)
  else if atClosed then (if contacts.getLsbD (28 + b) then .sealed else .closedUnsealed, position, none)
  else (.unhomed, position, none)

/-- What the Pump Controller hands on at the start (R71): a pump whose overload is found MADE. The detail names REST (log 42). -/
def Image.pumpStartNews (img : Image) (contacts : BitVec 52) (m : Fin 8) : List Notice :=
  if img.locks.pumps[m] = false ∧ img.cfg.pumps[m].enable = true ∧ contacts.getLsbD (8 + m) = true then
    [.fault ⟨.pumpOverload, some (.pump m), none, 0, .pumpState .rest⟩, .pumpNews m (.failed .pumpOverload)]
  else []

/-- What the Barrier Controller hands on at the start (R103): the limit that a barrier which is not locked is found at, and its fault. -/
def Image.barrierStartNews (img : Image) (contacts : BitVec 52) (b : Fin 6) : List Notice :=
  let atOpen := contacts.getLsbD (16 + b)
  let atClosed := contacts.getLsbD (22 + b)
  let x := img.barrierStart contacts b
  if img.locks.barriers[b] then []
  else
    (if atOpen && atClosed then []
     else if atOpen then [.barrierNews b .reachedOpen]
     else if atClosed then .barrierNews b .closedUnsealed :: if contacts.getLsbD (28 + b) then [.barrierNews b .sealed] else []
     else []) ++
    match x.2.2 with
    | some k =>
      [.fault ⟨k, some (.barrier b), none, 0, if k = .barrierNoLimit then .travel none none none else .travel x.2.1 none (some 0)⟩,
        .barrierNews b (.faulted k)]
    | none => []

/-- The part as it comes up from an image before the notices of the start are taken (R158, and R10, R12, R17, R33, R44, R51, R71, R82, R103, R121, R135,
R147): `source` is that of RESTARTED, bit k of `contacts` what input Kk reads at the first scan, `good` whether the stored image passed its check.
Rests on the model's choices of log 34, 42 (the detail of a PUMP_OVERLOAD found here), 44, 45, 52 and 56 (what is in force at a load), 51 (both limits and the
overload MADE) and 61 (Port C's reply). -/
def State.CameUp (u : State) (img : Image) (contacts : BitVec 52) (source : Nat) (good : Bool) : Prop :=
  (u.powered = true ∧ u.timeMs = 0 ∧ u.cfg = img.cfg ∧ u.locks = img.locks ∧ u.hourLeft = 3600000 ∧
    u.ageLeft = img.cfg.ageInterval * 1000 ∧ u.restartAtReply = false) ∧
  (∀ i : Fin 8, u.probes[i] = { state := if img.cfg.probes[i].enable then .unproven else .disabled }) ∧
  (∀ k : Fin 52, u.contacts[k] = { accepted := contacts.getLsbD k }) ∧
  (∀ d : Fin 44, u.drivers[d] = {}) ∧ (∀ r : Fin 16, u.rules[r] = {}) ∧
  (∀ i : Fin 4, u.sumps[i] =
    { picture := { arrivals := (img.cfg.heights i).map fun h => ⟨h.1, h.2, 65535⟩ }
      token := if img.cfg.sumps[i].enable then (List.finRange 8).find? fun m => img.cfg.pumps[m].enable && img.cfg.pumps[m].sump == i else none
      alert := img.cfg.sumps[i].alert, hh := img.cfg.sumps[i].hh, reopen := img.cfg.barriers.map (·.reopenHeight) }) ∧
  (∀ m : Fin 8, u.pumps[m] =
    if img.locks.pumps[m] then { state := .locked, locked := true, budget := img.cfg.pumps[m].starts }
    else if !img.cfg.pumps[m].enable then { budget := img.cfg.pumps[m].starts }
    else if contacts.getLsbD (8 + m) then { state := .failed, failure := some .pumpOverload, budget := img.cfg.pumps[m].starts }
    else { state := .rest, budget := img.cfg.pumps[m].starts, minOff := some (img.cfg.pumps[m].minOff * 1000) }) ∧
  (∀ b : Fin 6,
    let x := img.barrierStart contacts b
    u.barriers[b] =
      { state := x.1, position := x.2.1, failure := x.2.2, locked := img.locks.barriers[b]
        sealTimer := if x.1 = .closedUnsealed then some (img.cfg.barriers[b].sealTime * 1000) else none }) ∧
  (∀ f : Fin 12, u.feeds[f] = Feed.taking { state := if contacts.getLsbD (40 + f) then .live else .shed } img.cfg.feeds[f]) ∧
  (u.sar = {} ∧ u.dar = {} ∧ u.coil = { recharge := some 800, entries := u.coil.entries }) ∧
  (∀ p : Port, u.ordersOf p = {} ∧ u.port p = { rx := .skipping, mask := BitVec.allOnes 21, latches := (u.port p).latches } ∧
    ∀ k i, u.latched p k i = decide
      ((k = .restarted ∧ i = source) ∨ (k = .faultHeld ∧ i = 9 ∧ good = false) ∨
        (k = .pumpFailed ∧ ∃ m : Fin 8, i = m.val ∧ img.pumpStartNews contacts m ≠ []) ∨
        (k = .barrierFault ∧ ∃ b : Fin 6, i = b.val ∧ (img.barrierStart contacts b).2.2.isSome = true))) ∧
  u.fcr = (if good then {} else { record := some ⟨.configStore, none, none, 0, .none⟩ }) ∧
  u.work = (List.finRange 8).flatMap (img.pumpStartNews contacts) ++ (List.finRange 6).flatMap (img.barrierStartNews contacts)

/-! ### What a block is told of a change -/

/-- What the Supply Arbiter is told of a pump as the part goes from one state to another (R53, R65): it became pending, ceased to be, or is pending with
another acting set. -/
def State.sarTold (s u : State) (m : Fin 8) : List Notice :=
  match s.pumpPending m, u.pumpPending m with
  | false, true => [.sarPending m u.pumps[m].acting]
  | true, true => if u.pumps[m].acting = s.pumps[m].acting then [] else [.sarActing m u.pumps[m].acting]
  | true, false => [.sarNotPending m]
  | false, false => []

/-- What the Drive Arbiter is told of a barrier as the part goes from one state to another (R84). -/
def State.darTold (s u : State) (b : Fin 6) : List Notice :=
  match s.barriers[b].waits s.cfg.barriers[b].enable, u.barriers[b].waits u.cfg.barriers[b].enable with
  | none, some k => [.darWants b k]
  | some j, some k => if j = k then [] else [.darWants b k]
  | some _, none => [.darNoWant b]
  | none, none => []

/-- Whether a barrier's want changed from OPEN or HOME to CLOSE or to none, other than on entry to OPEN or FAULT (R126). -/
def State.wantLost (s u : State) (b : Fin 6) : Bool :=
  let was := s.barriers[b].turnWant s.cfg.barriers[b].enable
  let now := u.barriers[b].turnWant u.cfg.barriers[b].enable
  decide ((was = .open_ ∨ was = .home) ∧ (now = .close ∨ now = .none) ∧ u.barriers[b].state ≠ .openEnd ∧ u.barriers[b].state ≠ .fault)

/-- Whether the acting closure set of a barrier is not empty (R83). -/
abbrev Barrier.Acts (r : Barrier) : Prop :=
  r.closure.c = true ∨ (r.locked = false ∧ (r.closure.auto = true ∨ r.closure.a = true ∨ r.closure.b = true))

/-- Whether a homing is disturbed (R83): the acting set of a barrier that is not HOMING is not empty, nor is its home set. -/
def Barrier.disturbs (r : Barrier) : Bool := decide (r.Acts ∧ r.home ≠ {} ∧ r.state ≠ .homing)

/-- What the Barrier Controller hands on, in order, when it takes a barrier's wants anew, `v` being the record as written: a homing disturbed (R83), a LOCKED
barrier found at the limit of its want (R84), the Drive Arbiter told (R84), a want for open lost (R126). -/
def State.barrierTold (s u : State) (b : Fin 6) (v : Barrier) : List Notice :=
  (if v.disturbs then [.barrierNews b .homingDisturbed] else []) ++
    (match v.state, u.barriers[b].state with
      | .locked, .openEnd => [.barrierNews b .reachedOpen]
      | .locked, .closedUnsealed => [.barrierNews b .closedUnsealed]
      | .locked, .sealed => [.barrierNews b .closedUnsealed, .barrierNews b .sealed]
      | _, _ => []) ++
    s.darTold u b ++ if s.wantLost u b then [.barrierNews b .wantLost] else []

/-- Whether the acting set of a pump is not empty (R52). -/
abbrev Pump.Wanted (p : Pump) : Prop :=
  p.demand.c = true ∨ (p.locked = false ∧ (p.demand.auto = true ∨ p.demand.a = true ∨ p.demand.b = true))

/-- A pump's demand set and override flag are written, `new` being what the Pump Controller hands on: a RUNNING pump past its min run that nothing
wants any more rests (R52, R56), and else the Supply Arbiter is told of a pending pump (R53). No other pump and no other output changes. -/
def State.DemandTaken (s u : State) (m : Fin 8) (d : DemandSet) (ov : Bool) (new : List Notice) : Prop :=
  let r := { s.pumps[m] with demand := d, override := ov }
  let rests := r.state = .running ∧ r.minRunElapsed = true ∧ ¬r.Wanted
  (¬rests → u.pumps = s.pumps.set m r ∧ u.drivers = s.drivers ∧ new = s.sarTold u m) ∧
  (rests →
    u.pumps = s.pumps.set m { r with state := .rest, minRun := none, noFlow := none, minOff := some (s.cfg.pumps[m].minOff * 1000) } ∧
    u.drivers = s.drivers.set (runD m) { s.drivers[runD m] with commanded := false, energised := false } ∧
    new = [.sarFreed m, .pumpLeft m s.cfg.pumps[m].sump, .pumpNews m .leftRunning])

/-- A pump enters FAILED (R61): its output OFF, every timer stopped, its kind, PUMP_FAILED, and the notices in the order of R61 and R65; nothing else. -/
def State.PumpFails (s u : State) (m : Fin 8) (kind : FaultKind) (detail : FaultDetail) : Prop :=
  let p := s.pumps[m]
  let i := s.cfg.pumps[m].sump
  s.Raised u [(.pumpFailed, m.val)] ∧
  u = { s with
    pumps := s.pumps.set m { p with state := .failed, failure := some kind, proving := none, minRun := none, noFlow := none, minOff := none }
    drivers := s.drivers.set (runD m) { s.drivers[runD m] with commanded := false, energised := false }
    ports := u.ports
    work := s.work ++ (if s.pumpPending m then [.sarNotPending m] else []) ++
      (if p.state = .starting ∨ p.state = .running then [.sarFreed m] else []) ++
      (if p.state = .running then [.pumpLeft m i, .pumpNews m .leftRunning] else []) ++
      [.fault ⟨kind, some (.pump m), s.sumps[i].picture.level, s.partTime, detail⟩, .pumpNews m (.failed kind)] }

/-- What a barrier's record becomes once its wants are taken anew: a disturbed homing empties the home set (R83), and a LOCKED barrier whose want is
toward a limit that stands MADE is at that limit (R84). -/
def State.barrierAfter (s : State) (b : Fin 6) (r : Barrier) : Barrier :=
  let q := if r.disturbs then { r with home := {} } else r
  let c := s.cfg.barriers[b]
  let met := s.contacts[sealK b].accepted
  if q.state = .locked ∧ q.want c.enable = .close ∧ s.contacts[closedLimitK b].accepted = true then
    { q with
      state := if met then .sealed else .closedUnsealed, position := some c.closedCount
      sealTimer := if met then none else some (c.sealTime * 1000) }
  else if q.state = .locked ∧ (q.want c.enable = .home ∨ q.want c.enable = .open_) ∧ s.contacts[openLimitK b].accepted = true then
    { q with state := .openEnd, position := some 0, home := {}, sealTimer := none }
  else q

/-- A barrier enters FAULT (R93): both outputs OFF, both timers stopped, its position, an empty home set, its kind, BARRIER_FAULT, and the notices in the
order of R93; nothing else. -/
def State.BarrierFaults (s u : State) (b : Fin 6) (kind : FaultKind) (position : Option Nat) (detail : FaultDetail) : Prop :=
  let r := s.barriers[b]
  s.Raised u [(.barrierFault, b.val)] ∧
  u = { s with
    barriers := s.barriers.set b
      { r with state := .fault, position := position, increment := none, sealTimer := none, home := {}, failure := some kind }
    drivers := (s.drivers.set (driveCloseD b) { s.drivers[driveCloseD b] with commanded := false, energised := false }).set (driveOpenD b)
      { s.drivers[driveOpenD b] with commanded := false, energised := false }
    ports := u.ports
    work := s.work ++
      (if r.state = .closing ∨ r.state = .opening ∨ r.state = .homing then [.darFreed b]
       else if (r.waits s.cfg.barriers[b].enable).isSome then [.darNoWant b] else []) ++
      [.fault ⟨kind, some (.barrier b), s.sumps[s.cfg.barriers[b].sump].picture.level, s.partTime, detail⟩, .barrierNews b (.faulted kind)] }

/-- The outputs after a command ON to one of a pair, `partner` being the other (R14, R16): a partner that stands ON goes OFF, and the output is energised
unless its latch holds a fault. MODEL'S CHOICE (log 41): the partner goes OFF also when it does. -/
def State.drivenOn (s : State) (d partner : Fin 44) : Vector Driver 44 :=
  (if s.drivers[partner].commanded = true then
    s.drivers.set partner { s.drivers[partner] with commanded := false, energised := false } else s.drivers).set d
    { s.drivers[d] with commanded := true, energised := s.drivers[d].latch.isNone }

/-- The further report that a command ON to a latched output hands its owner (R16). -/
def State.drivenNews (s : State) (d : Fin 44) : List Notice :=
  match s.drivers[d].latch with
  | some k => [.driverFault d k]
  | none => []

/-- A notice that the Shed Sequencer's moves may hand on (R104, R119, R117), or a coil's fault report to it (R16). -/
def Notice.ofFeeds : Notice → Bool
  | .feedReport _ | .feedNews _ _ => true
  | .driverFault d _ => decide (20 ≤ d.val)
  | .fault r => decide (r.kind = .feedbackMismatch ∨ r.kind = .driverFault)
  | _ => false

/-- What the Shed Sequencer's moves from one state to another hand on: its own notices alone, and among them, for each feed whose state or set changed,
the report to the Protection Evaluator (R104, R119). They bring no item into force (R120, log 56). -/
def State.FeedsTold (s u : State) (new : List Notice) : Prop :=
  (∀ n ∈ new, n.ofFeeds = true) ∧ (∀ f : Fin 12, u.feeds[f].items = s.feeds[f].items) ∧
    ∀ f : Fin 12, u.feeds[f].state ≠ s.feeds[f].state ∨ u.feeds[f].demand ≠ s.feeds[f].demand → .feedReport s.feeds[f].items.sump ∈ new

/-- The Shed Sequencer moves from one state to another, `new` being what it hands on: no output but a coil's changes, and of the ports only latch sets, which
keep what they hold and take the events of feeds, of orders and of a CONFIG_SET alone. -/
def State.FeedsMove (s u : State) (new : List Notice) : Prop :=
  s.FeedsTold u new ∧ (∀ d : Fin 44, d.val < 20 → u.drivers[d] = s.drivers[d]) ∧
    ∀ p, u.port p = { s.port p with latches := (u.port p).latches } ∧
      ∀ k i, u.latched p k i = s.latched p k i ∨
        (u.latched p k i = true ∧ k ∈ [EventKind.feedWarned, .feedShed, .feedLive, .feedFault, .deferEnded, .orderDone, .config])

/-- The coil serves no entry: a pulse or the recharge is under way (R110). -/
abbrev State.CoilHeld (s : State) : Prop := s.coil.pulse.isSome = true ∨ s.coil.recharge.isSome = true

/-- A feed stands in SHED_WAIT, and in the coil queue exactly while its chain condition holds (R108). -/
def State.ShedTested (u : State) (f : Fin 12) : Prop :=
  u.feeds[f].state = .shedWait ∧
    ((∃ e ∈ u.coil.queue, e.feed = f ∧ e.op = .shed) ↔
      u.feeds[f].demand.hard = true ∨ ∀ g : Fin 12, u.cfg.feeds[g].enable = true → u.cfg.feeds[g].chain = u.cfg.feeds[f].chain →
        u.cfg.feeds[g].rank < u.cfg.feeds[f].rank → u.feeds[g].state = .shed ∨ u.feeds[g].state = .fault)

/-- A feed that stood in SHED or RESTORE_WAIT, `was` being which, after the restore tests (R112), judged on the chain as it then stands: RESTORE_WAIT with its
place in the coil queue when all four conditions hold; SHED when one of the first three fails; when only the fourth does, SHED from SHED or with a
higher feed in SHED_WAIT, and else RESTORE_WAIT without a place in the queue. Rests on the model's choice of log 40. -/
def State.RestoreTested (u : State) (f : Fin 12) (was : FeedState) : Prop :=
  let c := u.cfg.feeds[f]
  let w := u.feeds[f]
  let higher := fun (ok : FeedState → Prop) => ∀ g : Fin 12, u.cfg.feeds[g].enable = true → u.cfg.feeds[g].chain = c.chain →
    c.rank < u.cfg.feeds[g].rank → ok u.feeds[g].state
  let wanted := w.demand = {} ∧ w.request = true ∧ ∃ l, u.sumps[w.items.sump].picture.level = some l ∧ l + w.items.band < w.items.trip
  let back := higher fun st => st = .live ∨ st = .warned ∨ st = .deferred ∨ st = .fault
  (wanted → back → w.state = .restoreWait ∧ ∃ e ∈ u.coil.queue, e.feed = f ∧ e.op = .restore) ∧
  (¬(wanted ∧ back) → ∀ e ∈ u.coil.queue, e.feed ≠ f) ∧
  (¬(wanted ∧ back) → was = .shed ∨ ¬wanted ∨ (¬higher fun st => st ≠ .shedWait) → w.state = .shed) ∧
  (was = .restoreWait → wanted → ¬back → (higher fun st => st ≠ .shedWait) → w.state = .restoreWait)

/-- A feed has gone toward live from the record `v` (R109), out of the coil queue: DEFERRED under a deferral in force, else WARNED within the warning, or
DEFERRED on a pre-arm (R115), else LIVE with its episode ended, of which the Order Queue Unit is told. -/
def State.WentTowardLive (s u : State) (f : Fin 12) (v : Feed) (new : List Notice) : Prop :=
  let w := u.feeds[f]
  let near := s.feedArrival f ≤ v.items.lead + v.items.margin
  w.demand = v.demand ∧ w.request = v.request ∧ (∀ e ∈ u.coil.queue, e.feed ≠ f) ∧
  (v.deferral ≠ none → w.state = .deferred ∧ w.deferral = v.deferral) ∧
  (v.deferral = none → near → v.preArm = none → w.state = .warned ∧ w.clear = 0) ∧
  (v.deferral = none → near → v.preArm ≠ none → w.state = .deferred ∧ w.deferral = v.preArm ∧ w.preArm = none ∧ w.deferralUsed = true) ∧
  (v.deferral = none → ¬near → w.state = .live ∧ w.episode = false ∧ .feedNews f .reachedLive ∈ new)

/-! ### What an accepted CONFIG_SET does (R155) -/

/-- The value is refused for a unit in use (R154, step 5): a closed count or travel interval of a travelling barrier (R102), any item of a feed in SHEDDING or
RESTORING (R120), a supply limit below the slot count (R81). -/
def State.ItemInUse (s : State) (r : ItemRef) (c : Cfg) : Prop :=
  match r with
  | .barrier b .closedCount | .barrier b .interval => s.barriers[b].state = .closing ∨ s.barriers[b].state = .opening ∨ s.barriers[b].state = .homing
  | .feed f _ => s.feeds[f].state = .shedding ∨ s.feeds[f].state = .restoring
  | .part .supplyLimit => c.supplyLimit < s.sar.count
  | _ => False

/-- The value would leave level thresholds or barrier heights out of order (R154, step 5, R34, R102). -/
def Cfg.ItemDisorders (c : Cfg) (r : ItemRef) : Prop :=
  match r with
  | .sump i .stop | .sump i .lead | .sump i .lag | .sump i .alert | .sump i .hh =>
    ¬(c.sumps[i].stop < c.sumps[i].lead ∧ c.sumps[i].lead < c.sumps[i].lag ∧ c.sumps[i].lag < c.sumps[i].alert ∧ c.sumps[i].alert < c.sumps[i].hh)
  | .barrier b .closeHeight | .barrier b .reopenHeight => c.barriers[b].closeHeight ≤ c.barriers[b].reopenHeight
  | _ => False

/-- The value would give a feed the rank of another feed of its chain (R154, step 5, R120). -/
def Cfg.ItemDoubles (c : Cfg) (r : ItemRef) : Prop :=
  match r with
  | .feed f .chain | .feed f .rank => ∃ g : Fin 12, g ≠ f ∧ c.feeds[g].chain = c.feeds[f].chain ∧ c.feeds[g].rank = c.feeds[f].rank
  | _ => False

/-- The part with an item's new configuration and the store write of R156 begun, nothing else changed and nothing handed on. -/
def State.withItem (s : State) (c : Cfg) : State :=
  { s with cfg := c, store := { s.store with writing := some ⟨40, ⟨c, s.locks⟩⟩ }, work := [] }

/-- The item is applied and no unit changes: CONFIG source 0 and the store write alone. -/
def State.ItemOnly (s u : State) (c : Cfg) : Prop := s.Raised u [(.config, 0)] ∧ u = { s.withItem c with ports := u.ports }

/-- A sump item (R31, R34, R44, R51). A disable empties the sump's water state, takes AUTO from its pumps, its token away and its rules to IDLE; an enable
starts it CALM and empty, with the token at its lowest enabled pump; every other item is read where it is used. What R31 does not name of the picture stays
(log 34), and the levels and heights in force stand until the next picture (log 45, 52). -/
def State.SumpItemApplied (s u : State) (i : Fin 4) (k : SumpItem) (c : Cfg) : Prop :=
  let x := s.withItem c
  let old := s.sumps[i]
  let emptied := { old with
    ring := [], hasData := false, disagree := false
    picture := { old.picture with
      level := none, source := .noData, disagree := false, entries := 0, substituted := 0, inflow := 0, netRise := 0, valid := false
      arrivals := old.picture.arrivals.map fun (a : Arrival) => { a with time := 65535 } } }
  let was := s.cfg.sumps[i].enable
  let now := c.sumps[i].enable
  let mine := fun (m : Fin 8) => s.cfg.pumps[m].sump = i ∧ s.pumps[m].demand.auto = true
  (¬(k = .enable ∧ was ≠ now) → s.ItemOnly u c) ∧
  (k = .enable → was = true → now = false →
    (∀ m : Fin 8,
      let q := { s.pumps[m] with demand := { s.pumps[m].demand with auto := false }, override := false }
      let rests := q.state = .running ∧ q.minRunElapsed = true ∧ ¬q.Wanted
      (¬(mine m ∧ rests) → u.drivers[runD m] = s.drivers[runD m]) ∧
      (¬mine m → u.pumps[m] = s.pumps[m]) ∧ (mine m → ¬rests → u.pumps[m] = q) ∧
      (mine m → rests →
        u.pumps[m] = { q with state := .rest, minRun := none, noFlow := none, minOff := some (s.cfg.pumps[m].minOff * 1000) } ∧
        u.drivers[runD m] = { s.drivers[runD m] with commanded := false, energised := false })) ∧
    (∀ d : Fin 44, 8 ≤ d.val → u.drivers[d] = s.drivers[d]) ∧
    (∀ t : Fin 16, u.rules[t] = if s.cfg.rules[t].sump = i then {} else s.rules[t]) ∧
    s.Raised u ((.config, 0) :: (List.finRange 16).flatMap fun (t : Fin 16) =>
      if s.cfg.rules[t].sump = i ∧ s.rules[t].state = .fired then [(.ruleReleased, t.val)] else []) ∧
    u = { x with
      sumps := s.sumps.set i { emptied with token := none, duty := 0, leadRan := false }
      pumps := u.pumps, drivers := u.drivers, rules := u.rules, ports := u.ports
      work := (List.finRange 8).flatMap fun (m : Fin 8) =>
        if ¬(s.cfg.pumps[m].sump = i ∧ s.pumps[m].demand.auto = true) then []
        else if u.pumps[m].state = s.pumps[m].state then x.sarTold u m
        else [.sarFreed m, .pumpLeft m i, .pumpNews m .leftRunning] }) ∧
  (k = .enable → was = false → now = true →
    s.Raised u [(.config, 0)] ∧
    u = { x with
      sumps := s.sumps.set i { emptied with
        state := .calm, duty := 0, leadRan := false
        token := (List.finRange 8).find? fun m => c.pumps[m].enable && c.pumps[m].sump == i }
      ports := u.ports })

/-- A probe item (R8): a probe is disabled, enabled or proves itself anew, also on a value that the item holds. -/
def State.ProbeItemApplied (s u : State) (i : Fin 8) (k : ProbeItem) (c : Cfg) : Prop :=
  let p := s.probes[i]
  let anew : Probe := { state := .unproven, raw := p.raw }
  s.Raised u [(.config, 0)] ∧
  u = { s.withItem c with
    ports := u.ports
    probes := s.probes.set i
      (if k = .enable then if c.probes[i].enable = false then {} else if p.state = .disabled then { state := .unproven } else anew
       else if p.state = .disabled then p else anew) }

/-- A pump item (R44, R64, R69, R70). MODEL'S CHOICE (log 46, 60): the token of a pump that is disabled or moved is moved in this step, before any report, and
a moved pump that rests here is reported for its new sump. -/
def State.PumpItemApplied (s u : State) (m : Fin 8) (k : PumpItem) (c : Cfg) : Prop :=
  let x := s.withItem c
  let p := s.pumps[m]
  let i := s.cfg.pumps[m].sump
  let j := c.pumps[m].sump
  let was := s.cfg.pumps[m].enable
  let now := c.pumps[m].enable
  let held := fun (n : Fin 4) (token : Option (Fin 8)) => { s.sumps[n] with token := token, duty := 0, leadRan := false }
  let left := if s.sumps[i].token = some m then s.sumps.set i (held i ((List.finRange 8).find? fun g => c.pumps[g].enable && c.pumps[g].sump == i)) else s.sumps
  ((k = .enable ∧ was = now) ∨ (k = .sump ∧ i = j) ∨ (k ≠ .enable ∧ k ≠ .sump ∧ k ≠ .starts) → s.ItemOnly u c) ∧
  s.Raised u [(.config, 0)] ∧
  (k = .starts → u = { x with
    pumps := s.pumps.set m { p with budget := min p.budget c.pumps[m].starts }, ports := u.ports, work := x.sarTold u m }) ∧
  (k = .enable → was = true → now = false → u = { x with
    pumps := s.pumps.set m { p with
      state := if p.state = .failed then .failed else if p.locked then .locked else .off
      demand := {}, override := false, proving := none, minRun := none, noFlow := none, minOff := none }
    drivers := s.drivers.set (runD m) { s.drivers[runD m] with commanded := false, energised := false }
    sumps := left, ports := u.ports
    work := (if s.pumpPending m then [.sarNotPending m] else []) ++ (if p.state = .starting ∨ p.state = .running then [.sarFreed m] else []) ++
      (if p.state = .running then [.pumpLeft m i, .pumpNews m .leftRunning] else []) ++ [.pumpNews m .disabled] }) ∧
  (k = .enable → was = false → now = true → u = { x with
    pumps := if p.state = .off ∨ p.state = .locked then s.pumps.set m { p with state := .rest, minOff := some (s.cfg.pumps[m].minOff * 1000) } else s.pumps
    sumps := if s.sumps[i].token = none then s.sumps.set i (held i (some m)) else s.sumps
    ports := u.ports, work := x.sarTold u m }) ∧
  (k = .sump → i ≠ j →
    u = { x with
      pumps := u.pumps, drivers := u.drivers, ports := u.ports, work := u.work
      sumps := if now = true ∧ s.sumps[j].token = none then left.set j (held j (some m)) else left } ∧
    (p.demand.auto = false → u.pumps = s.pumps ∧ u.drivers = s.drivers ∧ u.work = []) ∧
    (p.demand.auto = true → x.DemandTaken u m { p.demand with auto := false } false u.work))

/-- A barrier item (R102); the reopen height in force stands until the next picture (log 52). Rests on the model's choices of log 21, 47 and 51. -/
def State.BarrierItemApplied (s u : State) (b : Fin 6) (k : BarrierItem) (c : Cfg) : Prop :=
  let x := s.withItem c
  let r := s.barriers[b]
  let n := c.barriers[b].closedCount
  let was := s.cfg.barriers[b].enable
  let now := c.barriers[b].enable
  let open_ := s.contacts[openLimitK b].accepted
  let closed := s.contacts[closedLimitK b].accepted
  let met := s.contacts[sealK b].accepted
  let tripped := s.contacts[driveOverloadK b].accepted
  let travels := r.state = .closing ∨ r.state = .opening ∨ r.state = .homing
  let counts := (k = .closedCount ∧ n ≠ s.cfg.barriers[b].closedCount) ∨ (k = .interval ∧ c.barriers[b].interval ≠ s.cfg.barriers[b].interval)
  let off := (s.drivers.set (driveCloseD b) { s.drivers[driveCloseD b] with commanded := false, energised := false }).set (driveOpenD b)
    { s.drivers[driveOpenD b] with commanded := false, energised := false }
  let atOpen := fun (q : Barrier) => { q with state := .openEnd, position := some 0, home := {}, sealTimer := none }
  let atClosed := fun (q : Barrier) => { q with
    state := if met then .sealed else .closedUnsealed, position := some n, sealTimer := if met then none else some (c.barriers[b].sealTime * 1000) }
  let closedNews := .barrierNews b .closedUnsealed :: if met then [.barrierNews b .sealed] else []
  let failed := fun (q : Barrier) (kind : FaultKind) =>
    { q with state := .fault, increment := none, sealTimer := none, home := {}, failure := some kind }
  let news := fun (kind : FaultKind) (d : FaultDetail) =>
    [.fault ⟨kind, some (.barrier b), s.sumps[c.barriers[b].sump].picture.level, s.partTime, d⟩, .barrierNews b (.faulted kind)]
  let becomes := fun (v : Barrier) (drivers : Vector Driver 44) (told : List Notice) =>
    u = { x with barriers := s.barriers.set b v, drivers := drivers, ports := u.ports, work := told }
  (¬counts → ¬(k = .enable ∧ was ≠ now) → s.ItemOnly u c) ∧
  (counts →
    let v :=
      if r.state = .stopped then { r with state := .unhomed, position := none }
      else if r.state = .closedUnsealed ∨ r.state = .sealed then { r with position := some n }
      else if (r.state = .locked ∨ r.state = .fault) ∧ r.position ≠ some 0 then { r with position := none } else r
    s.Raised u [(.config, 0)] ∧ becomes (x.barrierAfter b v) s.drivers (x.barrierTold u b v)) ∧
  (k = .enable → was = true → now = false →
    let q := { r with closure := {}, home := {}, release := .halt, increment := none, sealTimer := none, position := if travels then none else r.position }
    let first := (if travels then [.darFreed b] else []) ++ [.barrierNews b .disabled]
    let moved := fun (v : Barrier) (told : List Notice) => s.Raised u [(.config, 0)] ∧ becomes v off (first ++ told ++ s.barrierTold u b v)
    (r.state = .fault → moved q []) ∧
    (r.state ≠ .fault → r.locked = true → moved { q with state := .locked } []) ∧
    (r.state ≠ .fault → r.locked = false →
      (open_ = false → closed = false → moved { q with state := if q.position = none then .unhomed else .stopped } []) ∧
      (open_ = true → closed = false → moved (atOpen q) [.barrierNews b .reachedOpen]) ∧
      (open_ = false → closed = true → moved (atClosed q) closedNews) ∧
      (open_ = true → closed = true →
        s.Raised u [(.config, 0), (.barrierFault, b.val)] ∧
        becomes { failed q .barrierNoLimit with position := none } off
          (first ++ news .barrierNoLimit (.travel none none none) ++ s.barrierTold u b (failed q .barrierNoLimit))))) ∧
  (k = .enable → was = false → now = true →
    let q := { r with closure := {}, release := .halt, sealTimer := none }
    let moved := fun (v : Barrier) (told : List Notice) =>
      s.Raised u [(.config, 0)] ∧ becomes (x.barrierAfter b v) s.drivers (told ++ s.barrierTold u b v)
    (r.state = .fault → moved q []) ∧
    (r.state ≠ .fault → r.locked = true → moved { q with
      state := .locked, position := if open_ = true ∧ closed = false then some 0 else if open_ = false ∧ closed = true then some n else none } []) ∧
    (r.state ≠ .fault → r.locked = false → tripped = false →
      (open_ = false → closed = false → moved { q with state := .unhomed, position := none } []) ∧
      (open_ = true → closed = false → moved (atOpen q) [.barrierNews b .reachedOpen]) ∧
      (open_ = false → closed = true → moved (atClosed q) closedNews)) ∧
    (r.state ≠ .fault → r.locked = false → ¬travels → r.home = {} →
      (open_ = true → closed = true →
        s.Raised u [(.config, 0), (.barrierFault, b.val)] ∧
        becomes { failed q .barrierNoLimit with position := none } off (news .barrierNoLimit (.travel none none none))) ∧
      (tripped = true → ¬(open_ = true ∧ closed = true) →
        let position := if open_ = true then some 0 else if closed = true then some n else none
        s.Raised u [(.config, 0), (.barrierFault, b.val)] ∧
        becomes { failed q .barrierOverload with position := position } off
          ((if open_ = true then [.barrierNews b .reachedOpen] else if closed = true then closedNews else []) ++
            news .barrierOverload (.travel position none (some r.travel))))))

/-- A feed item (R120). A disable empties the set, the request, the deferral, the pre-arm and the episode and takes the state from the contact; an enable
takes the state as at reset; a new chain or rank tests the chains (R108), each feed in SHED_WAIT then standing in the coil queue exactly when its chain
condition holds. Every other item is written, and the items in force stand until the next picture or order (log 56). -/
def State.FeedItemApplied (s u : State) (f : Fin 12) (k : FeedItem) (c : Cfg) : Prop :=
  let x := s.withItem c
  let v := s.feeds[f]
  let w := u.feeds[f]
  let made := s.contacts[auxK f].accepted
  let was := s.cfg.feeds[f].enable
  let now := c.feeds[f].enable
  let shifts := (k = .chain ∨ k = .rank) ∧ (c.feeds[f].chain ≠ s.cfg.feeds[f].chain ∨ c.feeds[f].rank ≠ s.cfg.feeds[f].rank)
  (¬shifts → ¬(k = .enable ∧ was ≠ now) → s.ItemOnly u c) ∧
  (s.CoilRight → shifts ∨ (k = .enable ∧ was ≠ now) →
    u = { x with feeds := u.feeds, coil := u.coil, drivers := u.drivers, ports := u.ports, work := u.work } ∧ x.FeedsMove u u.work ∧
    u.latchedAll .config 0 = true ∧
    (∀ g : Fin 12, u.feeds[g].demand = if g = f ∧ k = .enable ∧ now = false then {} else s.feeds[g].demand) ∧
    (k = .enable → now = false → .feedNews f .disabled ∈ u.work ∧ (∀ e ∈ u.coil.queue, e.feed ≠ f) ∧ (v.deferral ≠ none → u.latchedAll .deferEnded f = true) ∧
      w = { v with
        state := if v.state = .fault then .fault else if made then .live else .shed
        demand := {}, request := false, deferral := none, preArm := none, episode := false }) ∧
    (k = .enable → now = true → (v.state = .fault → w = v) ∧
      (v.state ≠ .fault → v.request = false → w.state = (if made then .live else .shed) ∧ w.cause = .atStart)) ∧
    (shifts → s.coil.pulse.isSome = true ∨ s.coil.recharge.isSome = true → u.drivers = s.drivers ∧
      ∀ g : Fin 12, c.feeds[g].chain = c.feeds[f].chain → u.feeds[g].state = .shedWait →
        ((∃ e ∈ u.coil.queue, e.feed = g ∧ e.op = .shed) ↔
          u.feeds[g].demand.hard = true ∨ ∀ h : Fin 12, c.feeds[h].enable = true → c.feeds[h].chain = c.feeds[g].chain →
            c.feeds[h].rank < c.feeds[g].rank → u.feeds[h].state = .shed ∨ u.feeds[h].state = .fault)))

/-- What an accepted CONFIG_SET of an item makes of the part, `c` being the configuration with the value written (R155): by the item's class; a rule goes to
IDLE (R51); a supply limit lets the Supply Arbiter look, as when a grant has been taken (R81); the age interval is read at the timer's next start (R135). -/
def State.ItemApplied (s u : State) (r : ItemRef) (c : Cfg) : Prop :=
  match r with
  | .sump i k => s.SumpItemApplied u i k c
  | .probe i k => s.ProbeItemApplied u i k c
  | .pump m k => s.PumpItemApplied u m k c
  | .barrier b k => s.BarrierItemApplied u b k c
  | .feed f k => s.FeedItemApplied u f k c
  | .rule t _ =>
    s.Raised u ((.config, 0) :: if s.rules[t].state = .fired then [(.ruleReleased, t.val)] else []) ∧
      u = { s.withItem c with rules := s.rules.set t {}, ports := u.ports }
  | .part .supplyLimit =>
    s.Raised u [(.config, 0)] ∧
      u = { (if s.sar.outstanding = none then (s.withItem c).handle (.sarTaken 0) else s.withItem c) with ports := u.ports }
  | .part _ => s.ItemOnly u c

/-! ### Orders that end in a queue with SETTLEs (R125, R134) -/

/-- A queue as acceptance and posting leave it (R122, R134): distinct sequence numbers, at most eight SETTLEs, each waiting on the entries before it. -/
def PortOrders.QueueRight (o : PortOrders) : Prop :=
  (o.queue.map (·.seq)).Nodup ∧ (o.queue.filter fun x => x.kind == .settle).length ≤ 8 ∧ o.SettlesRight

/-- The entries that leave a queue, in the order of their records, as those of a list end one after another: each, and after it the SETTLEs before which no
entry is then left, which wait on nothing more. -/
def endedInTurn : List Entry → List Entry → List Entry
  | [], _ => []
  | e :: more, queue =>
    let others := queue.filter fun x => x.seq != e.seq
    e :: (others.takeWhile fun x => x.kind == .settle) ++ endedInTurn more (others.dropWhile fun x => x.kind == .settle)

/-- A port's orders once the entries `gone` of its queue have ended with one outcome: the records join the list, the SETTLEs' DONE among them; the queue and
every settle set in it lose what has ended. -/
def State.ordersOnce (s : State) (p : Port) (gone : List Entry) (o : Ending) (d : Detail) : PortOrders :=
  let ended := endedInTurn gone (s.ordersOf p).queue
  let stays := fun (n : Nat) => !(ended.map (·.seq)).contains n
  { queue := ((s.ordersOf p).queue.filter fun x => stays x.seq).map fun (x : Entry) => { x with settle := x.settle.filter stays }
    done := (s.ordersOf p).done ++ ended.map fun x => if x.kind = .settle then s.completionOf x .done {} else s.completionOf x o d }

/-- The entries `gone` of a port's queue end with one outcome: their records and those of the SETTLEs they empty, and ORDER_DONE with the slot of each. -/
def State.PortEnds (s t : State) (p : Port) (gone : List Entry) (o : Ending) (d : Detail) : Prop :=
  t.ordersOf p = s.ordersOnce p gone o d ∧ t.port p = { s.port p with latches := (t.port p).latches } ∧
    ∀ k i, t.latched p k i =
      (s.latched p k i || decide (k = .orderDone ∧ i < 16 ∧ ∃ x ∈ endedInTurn gone (s.ordersOf p).queue, x.slot = i))

/-- They end, and nothing else of the part changes. -/
def State.OnlyEnds (s t : State) (p : Port) (gone : List Entry) (o : Ending) (d : Detail) : Prop :=
  s.PortEnds t p gone o d ∧ t = { s with orders := t.orders, ports := t.ports } ∧ ∀ g, g ≠ p → t.ordersOf g = s.ordersOf g ∧ t.port g = s.port g

/-! ### Orders as they are accepted -/

/-- The entry of an order that is accepted while the queue of its port is empty: the next sequence number, and ACTIVE (R122, R124). -/
def State.firstEntryOf (s : State) (slot : Nat) (tag : Byte) (kind : OrderKind) (target : Target) (urgent : Bool) (seconds : Word16) : Entry :=
  { slot := slot, seq := s.nextSeq, tag := tag, kind := kind, target := target, urgent := urgent, seconds := seconds.toNat, active := true }

/-- The completion record of an order that ends now (R125). -/
def State.recordOf (s : State) (e : Entry) (o : Ending) (d : Detail) : Completion :=
  { slot := e.slot, seq := e.seq, tag := e.tag, kind := e.kind, target := e.target, urgent := e.urgent, ending := o, time := s.partTime, detail := d }

/-- The lowest-numbered free slot of a port (R122). -/
def State.FreeSlot (s : State) (p : Port) (slot : Nat) : Prop :=
  slot < 8 ∧ slot ∉ (s.ordersOf p).used ∧ ∀ n < slot, n ∈ (s.ordersOf p).used

/-- An ORDER on a known target passes the checks that R123 makes from its third check on, and takes a slot. -/
def State.Accepts (s : State) (p : Port) (target : Target) (slot : Nat) : Prop :=
  s.targetEnabled target = true ∧ (target.lockable = true → (s.inLockout target = true ↔ p = .c)) ∧ s.FreeSlot p slot

/-- The answer of an accepted ORDER: its slot and its sequence number (R145). -/
def State.orderAnswer (s : State) (slot : Nat) : Answer := ⟨.accepted, byte slot :: seqBytes s.nextSeq⟩

end Sys2Proof.Machine
end

