-- ==== Sys2Proof/Certificates/Slice0/Obligations.lean ====
section
/-! DEFINITION. The statements for the provers. `u` is the state a command's own effect leaves, with the notices it hands on; `State.settled` takes those notices
(00_scope, "How the blocks work together"), and a request's reply is formed from what stands then (R143). -/

open Sys2Proof Sys2Proof.Machine

/-! ### The queue of commands and the passage of time -/

/-- One step runs the command at the front of the queue on the rest of the queue. -/
def Obligations.StepRunsTheFrontCommand : Prop :=
  ∀ (c : Instr) (rest : List Instr) (s : State), s.pending = c :: rest → step s = exec c { s with pending := rest }

/-- A step on an empty queue. R141, R143: a frame that has passed its check is dispatched: the step runs the request that its body spells, that of the
first port that holds one (MODEL'S CHOICE, log 26). MODEL'S CHOICE (log 8): when no port holds one, one millisecond of part time passes, every running
timer has one less left, a feed's deferral and pre-arm one second less at each whole second (R115), and nothing else changes. Without power nothing
changes. -/
def Obligations.StepOnAnEmptyQueue : Prop :=
  (∀ (s : State) (p : Port) (body : List Byte) (c : Instr), s.pending = [] → (s.port p).checked = some body → decodeRequest p body = some c →
      (∀ q : Port, q.idx < p.idx → (s.port q).checked = none) → step s = exec c s) ∧
  ∀ s : State, s.pending = [] → (∀ (p : Port) (body : List Byte), (s.port p).checked = some body → decodeRequest p body = none) →
    ∃ t : State, step s = .next t ∧
      (s.powered = false → t = s) ∧
      (s.powered = true →
        (∀ m : Fin 8, t.pumps[m] =
          { s.pumps[m] with
            proving := s.pumps[m].proving.map (· - 1), minRun := s.pumps[m].minRun.map (· - 1)
            noFlow := s.pumps[m].noFlow.map (· - 1), minOff := s.pumps[m].minOff.map (· - 1) }) ∧
        (∀ b : Fin 6, t.barriers[b] =
          { s.barriers[b] with increment := s.barriers[b].increment.map (· - 1), sealTimer := s.barriers[b].sealTimer.map (· - 1) }) ∧
        (∀ f : Fin 12, t.feeds[f] =
          if (s.timeMs + 1) % 1000 = 0 then
            { s.feeds[f] with deferral := s.feeds[f].deferral.map (· - 1), preArm := s.feeds[f].preArm.map (· - 1) }
          else s.feeds[f]) ∧
        t = { s with
          timeMs := s.timeMs + 1, pumps := t.pumps, barriers := t.barriers, feeds := t.feeds
          hourLeft := s.hourLeft - 1, ageLeft := s.ageLeft - 1
          coil := { s.coil with
            pulse := s.coil.pulse.map fun w => { w with left := w.left - 1 }
            check := s.coil.check.map fun w => { w with left := w.left - 1 }
            recharge := s.coil.recharge.map (· - 1) }
          store := { s.store with writing := s.store.writing.map fun w => { w with left := w.left - 1 } } })

/-- Every command on every state answers a next state, and leaves the commands that wait as they are. -/
def Obligations.EveryCommandAnswersNext : Prop :=
  ∀ (c : Instr) (s : State), ∃ t : State, exec c s = .next t ∧ t.pending = s.pending

/-- POWER_LOSS (R156, R17): every output drops and is OFF with a clear latch; a store write under way leaves an image that fails its check;
a held restart is forgotten. Until POWER_ON, no command has an effect.
Rests on the model's choices of log 5 and 11. -/
def Obligations.PowerLossStopsThePart : Prop :=
  (∀ s : State, exec .powerLoss s = .next
    { s with
      powered := false, drivers := Vector.replicate 44 {}, work := []
      store := { s.store with sound := s.store.sound && s.store.writing.isNone, writing := none, restartHeld := false }
      tornCount := if s.store.writing.isSome then s.tornCount + 1 else s.tornCount }) ∧
  ∀ (c : Instr) (s : State), s.powered = false → (∀ contacts picks, c ≠ .powerOn contacts picks) → c ≠ .powerLoss → exec c s = .next s

/-- POWER_ON (R158): the stored image when it is sound, else the factory image with an empty lockout set and CONFIG_STORE_FAULT with part time 0 in
the fault record; every block in its reset state; sequence numbers and coil entry numbers begin anew; RESTARTED source 0.
MODEL'S CHOICES that CameUp states: a barrier found with both limits and its drive overload MADE enters FAULT with BARRIER_NO_LIMIT alone (log 51), and the
detail of a PUMP_OVERLOAD found at the start names REST (log 42). Rests on those of log 9, 11, 34, 44, 45, 52 and 56 too. -/
def Obligations.PowerOnBringsThePartUp : Prop :=
  ∀ (contacts : BitVec 52) (picks : Picks) (s : State),
    ∃ u : State, exec (.powerOn contacts picks) s = .next (u.settled picks) ∧
      u.CameUp (if s.store.sound = true ∧ s.store.writing = none then s.store.image else ⟨Cfg.factory, Locks.none⟩) contacts 0
        (decide (s.store.sound = true ∧ s.store.writing = none)) ∧
      u.nextSeq = 1 ∧ u.coil.entries = 0 ∧ u.store.image = s.store.image ∧ u.store.writing = none ∧ u.store.restartHeld = false ∧
      (u.store.sound = true ↔ s.store.sound = true ∧ s.store.writing = none) ∧
      u.pending = s.pending

/-! ### What every step keeps -/

/-- The part right after reset meets every invariant below.
Rests on the model's choices of log 1 and 2. -/
def Obligations.ResetIsSound : Prop :=
  State.reset.LinesRight ∧ State.reset.ConfigOrdered ∧ State.reset.PairsApart ∧ State.reset.SlotsRight ∧ State.reset.SeqsRight ∧
    State.reset.SettlesRight ∧ State.reset.LocksAgree ∧ State.reset.ProbesRight ∧ State.reset.RingsBounded ∧ State.reset.CoilRight

/-- R150: after every step each attention line is asserted exactly while its completion list is not empty or an unmasked latch set is not empty. -/
def Obligations.StepKeepsAttentionLinesRight : Prop := ∀ s t : State, s.LinesRight → step s = .next t → t.LinesRight

/-- R34, R102, R120: no step leaves thresholds out of order, a reopen height at or above its close height, or a rank taken twice in a chain, in the
working configuration, the stored image or an image being written. -/
def Obligations.StepKeepsConfigurationOrdered : Prop := ∀ s t : State, s.ConfigOrdered → step s = .next t → t.ConfigOrdered

/-- R14, R16: no step leaves both outputs of a pair commanded ON, nor an energised output that is not commanded ON or whose latch holds a fault. -/
def Obligations.StepKeepsOutputPairsApart : Prop := ∀ s t : State, s.PairsApart → step s = .next t → t.PairsApart

/-- R122: no step lets a port use more than eight slots, one slot twice, or one sequence number twice in a queue. R134: no step lets a SETTLE wait on anything
but the entries that stand before it, nor an order of another kind on any. -/
def Obligations.StepKeepsSlotsAndSequenceNumbers : Prop :=
  (∀ s t : State, s.SlotsRight ∧ s.SeqsRight → step s = .next t → t.SlotsRight ∧ t.SeqsRight) ∧
    ∀ s t : State, s.SettlesRight → step s = .next t → t.SettlesRight

/-- R66, R68, R95, R97: after every step the locked flags of the pump and barrier records are the lockout set. -/
def Obligations.StepKeepsLockedFlagsEqualToLockoutSet : Prop := ∀ s t : State, s.LocksAgree → step s = .next t → t.LocksAgree

/-- R1, R4 to R7, R22: the rings keep their bounds, every sample level lies within 0..6000 mm, and a GOOD probe holds a full sample ring. -/
def Obligations.StepKeepsProbesAndHistoryRings : Prop :=
  ∀ s t : State, s.ProbesRight ∧ s.RingsBounded → step s = .next t → t.ProbesRight ∧ t.RingsBounded

/-- R110: no step lets a feed stand twice in the coil queue or wait in it in another state than the one that waits for its operation, nor leaves a pulse or
a pending check on a feed that is not SHEDDING or RESTORING by its operation, nor both on one feed. -/
def Obligations.StepKeepsCoilQueueRight : Prop := ∀ s t : State, s.CoilRight → step s = .next t → t.CoilRight

/-- R151: a fault record that holds keeps its contents, and the also-occurred set only grows, until FAULT_CLEAR or a load. -/
def Obligations.FirstFaultIsHeld : Prop :=
  ∀ (c : Instr) (s : State) (r : FaultReport), s.fcr.record = some r → loads c = false → (∀ p tag, c ≠ .faultClear p tag) →
    ∃ t : State, exec c s = .next t ∧ t.fcr.record = some r ∧ ∀ k, s.fcr.also.getLsbD k = true → t.fcr.also.getLsbD k = true

/-- R125, R138, R148, R149: a latched event stays latched on its port until that port's EVENTS, its link reset or a load, and a posted completion stays in its
place at the head of its port's list until that port's COLLECT, its link reset or a load. -/
def Obligations.LatchesAndCompletionsStay : Prop :=
  ∀ (c : Instr) (s : State) (p : Port), loads c = false → (∀ picks, c ≠ .lineBreak p picks) →
    ∃ t : State, exec c s = .next t ∧
      ((∀ tag, c ≠ .events p tag) → ∀ k i, s.latched p k i = true → t.latched p k i = true) ∧
      ((∀ tag, c ≠ .collect p tag) → (s.ordersOf p).done <+: (t.ordersOf p).done)

/-- R122, R154 to R158: outside a load, only CONFIG_SET changes the working configuration, only LOCKOUT and UNLOCK the lockout set, and only an ORDER the
sequence count, which then rises by one at most. MODEL'S CHOICE (log 11): the stored image changes only at the end of a store write; a write that a power
loss cuts short leaves the image in its field and clears the flag that says whether it passes its check, where R156 speaks of a torn image. -/
def Obligations.WhoChangesConfigurationAndCounts : Prop :=
  ∀ (c : Instr) (s : State),
    ∃ t : State, exec c s = .next t ∧
      (loads c = false → (∀ p tag item unit value picks, c ≠ .configSet p tag item unit value picks) → t.cfg = s.cfg) ∧
      (loads c = false → (∀ p tag cls idx picks, c ≠ .lockout p tag cls idx picks) →
        (∀ p tag cls idx picks, c ≠ .unlock p tag cls idx picks) → t.locks = s.locks) ∧
      ((∀ kind p tag cls idx urgency seconds picks, c ≠ orderCmd kind p tag cls idx urgency seconds picks) →
        (∀ contacts picks, c ≠ .powerOn contacts picks) → t.nextSeq = s.nextSeq) ∧
      (∀ kind p tag cls idx urgency seconds picks, c = orderCmd kind p tag cls idx urgency seconds picks →
        t.nextSeq = s.nextSeq ∨ t.nextSeq = s.nextSeq + 1) ∧
      ((∀ agrees sound contacts picks, c ≠ .writeEnd agrees sound contacts picks) → t.store.image = s.store.image)

/-! ### Field inputs and outputs (chapter 1) -/

/-- SAMPLING_INSTANT (R1 to R7): each sampled code joins the raw code ring. An invalid code (below 590 or above 3440, as of every current above the
converter's range): the sample ring stays; UNPROVEN counts anew, GOOD counts toward LOST and enters it at the fourth with PROBE_LOST, LOST stays. A valid
code becomes a sample level by span and offset, limited to 6000 mm, and joins the sample ring; UNPROVEN reaches GOOD at its eighth in a row, with
PROBE_BACK when the probe had been LOST; LOST starts afresh with this sample alone. A DISABLED probe is not sampled. Only probes and ports change.
Rests on the model's choices of log 10. -/
def Obligations.SamplesAreJudgedAndTaken : Prop :=
  ∀ (s : State) (currents : Vector Nat 8), s.powered = true →
    ∃ t : State, exec (.samplingInstant currents) s = .next t ∧ t = { s with probes := t.probes, ports := t.ports, work := [] } ∧
      ∀ i : Fin 8, ∃ code : Nat,
        let formula := currents[i] * 1638 / 10000
        let q := s.probes[i]
        let cfg := s.cfg.probes[i]
        let raw := (if q.raw.length < 8 then q.raw else q.raw.tail) ++ [code]
        let span := if code ≤ 655 then 0 else if code < 3276 then (code - 655) * cfg.span / 2621 else cfg.span
        let level := if 6000 < cfg.offset + span then 6000 else cfg.offset + span
        let ring := (if q.ring.length < 8 then q.ring else q.ring.tail) ++ [level]
        let invalid := code < 590 ∨ 3440 < code
        (formula ≤ 4095 → code = formula) ∧ (4095 < formula → 3440 < code ∧ code ≤ 4095) ∧
        (q.state = .disabled → t.probes[i] = q) ∧
        (invalid →
          (q.state = .unproven → t.probes[i] = { q with raw := raw, validRun := 0 }) ∧
          (q.state = .good → q.invalidRun < 3 → t.probes[i] = { q with raw := raw, invalidRun := q.invalidRun + 1 }) ∧
          (q.state = .good → 3 ≤ q.invalidRun → t.probes[i] = { q with raw := raw, state := .lost, invalidRun := 0, wasLost := true }) ∧
          (q.state = .lost → t.probes[i] = { q with raw := raw })) ∧
        (¬invalid →
          (q.state = .good → t.probes[i] = { q with raw := raw, ring := ring, invalidRun := 0 }) ∧
          (q.state = .unproven → q.validRun < 7 → t.probes[i] = { q with raw := raw, ring := ring, validRun := q.validRun + 1 }) ∧
          (q.state = .unproven → 7 ≤ q.validRun →
            t.probes[i] = { q with raw := raw, ring := ring, state := .good, validRun := 0, invalidRun := 0, wasLost := false }) ∧
          (q.state = .lost → t.probes[i] = { q with raw := raw, ring := [level], state := .unproven, validRun := 1 })) ∧
        ∀ p, t.latched p .probeLost i = (s.latched p .probeLost i || decide (invalid ∧ q.state = .good ∧ 3 ≤ q.invalidRun)) ∧
          t.latched p .probeBack i =
            (s.latched p .probeBack i || decide (¬invalid ∧ q.state = .unproven ∧ 7 ≤ q.validRun ∧ q.wasLost = true))

/-- SCAN (R11): each input on its own; a reading that agrees clears the change count, the third that disagrees in a row is accepted, and each acceptance is
handed to the owner. Those notices change no accepted state. SHORTED and OPEN_LOAD (R15): an energised output drops, its latch takes the fault, its commanded
state stays, and the owner gets the report; an output that stands de-energised is not watched.
Rests on the model's choices of log 41. -/
def Obligations.ScansAndLoadFaultsReachTheOwners : Prop :=
  (∀ (s : State) (readings : BitVec 52) (picks : Picks), s.powered = true →
    ∃ u : State, exec (.scan readings picks) s = .next (u.settled picks) ∧ (u.settled picks).contacts = u.contacts ∧
      (∀ k : Fin 52, u.contacts[k] =
        if readings.getLsbD k = s.contacts[k].accepted then { accepted := s.contacts[k].accepted, count := 0 }
        else if s.contacts[k].count < 2 then { accepted := s.contacts[k].accepted, count := s.contacts[k].count + 1 }
        else { accepted := readings.getLsbD k, count := 0 }) ∧
      u = { s with
        contacts := u.contacts
        work := (List.finRange 52).flatMap fun (k : Fin 52) =>
          if readings.getLsbD k ≠ s.contacts[k].accepted ∧ 2 ≤ s.contacts[k].count then [.contact k (readings.getLsbD k)] else [] }) ∧
  ∀ (s : State) (d : Fin 44) (picks : Picks), s.powered = true →
    (s.drivers[d].energised = true →
      exec (.shorted d picks) s = .next
        ({ s with
          drivers := s.drivers.set d { commanded := s.drivers[d].commanded, energised := false, latch := some .shorted }
          work := [.driverFault d .shorted] }.settled picks) ∧
      exec (.openLoad d picks) s = .next
        ({ s with
          drivers := s.drivers.set d { commanded := s.drivers[d].commanded, energised := false, latch := some .openLoad }
          work := [.driverFault d .openLoad] }.settled picks)) ∧
    (s.drivers[d].energised = false →
      exec (.shorted d picks) s = .next ({ s with work := [] }.settled picks) ∧
      exec (.openLoad d picks) s = .next ({ s with work := [] }.settled picks))

/-! ### The water picture, sump states and trip rules (chapters 2 and 3) -/

/-- SWEEP visits every sump, each visit an event of its own (R18). One visit (R18 to R30): level and source, history ring, inflow and net rise, disagree
flag, the arrival list, and the publication to the Protection Evaluator and the Shed Sequencer; it leaves the sump's state, token and thresholds in force,
every other sump and every latch but DISAGREE of this sump alone. With it the items of the sump's feeds, and of those that were its own until now, come into
force (R120). A disabled sump is left alone.
Rests on the model's choices of log 6 and 56. -/
def Obligations.SweepPublishesEveryPicture : Prop :=
  (∀ (s : State) (picks : Picks), s.powered = true →
      exec (.sweep picks) s = .next ({ s with work := [.sweepSump 0, .sweepSump 1, .sweepSump 2, .sweepSump 3] }.settled picks)) ∧
  (∀ (s : State) (i : Fin 4), s.ProbesRight →
      (s.cfg.sumps[i].enable = false → s.handle (.sweepSump i) = s) ∧
      (s.cfg.sumps[i].enable = true →
        ∃ t : State, s.handle (.sweepSump i) = t ∧ s.Raised t (if t.sumps[i].disagree = true ∧ s.sumps[i].disagree = false then [(.disagree, i.val)] else []) ∧
          t = { s with
            sumps := s.sumps.set i
              { s.sumps[i] with
                ring := t.sumps[i].ring, hasData := t.sumps[i].hasData, disagree := t.sumps[i].disagree, picture := t.sumps[i].picture }
            feeds := t.feeds, ports := t.ports, work := s.work ++ [.pictureToPev i, .pictureToShs i] } ∧
          (∀ f : Fin 12, t.feeds[f] =
            if s.cfg.feeds[f].sump = i ∨ s.feeds[f].items.sump = i then s.feeds[f].taking s.cfg.feeds[f] else s.feeds[f]) ∧
          let c := s.cfg.sumps[i]
          let old := s.sumps[i]
          let new := t.sumps[i]
          let x := s.probes[State.primaryOf i]
          let y := s.probes[State.partnerOf i]
          let flow := (((List.finRange 8).filter fun m => s.cfg.pumps[m].sump = i ∧ s.pumps[m].state = .running).map fun m => s.cfg.pumps[m].flow).sum
          (x.state = .good → y.state = .good →
            new.picture.level = some (max (x.ring.sum / 8) (y.ring.sum / 8)) ∧ new.picture.source = .higherOfTwo ∧
            new.disagree = decide (c.band < max (x.ring.sum / 8) (y.ring.sum / 8) - min (x.ring.sum / 8) (y.ring.sum / 8))) ∧
          (x.state = .good → y.state ≠ .good → new.picture.level = some (x.ring.sum / 8) ∧ new.picture.source = .primary) ∧
          (x.state ≠ .good → y.state = .good → new.picture.level = some (y.ring.sum / 8) ∧ new.picture.source = .partner) ∧
          (x.state ≠ .good → y.state ≠ .good → old.hasData = false → new.picture.level = none ∧ new.picture.source = .noData) ∧
          (x.state ≠ .good → y.state ≠ .good → old.hasData = true → c.loss = .hold →
            new.picture.level = old.picture.level ∧ new.picture.source = .held) ∧
          (x.state ≠ .good → y.state ≠ .good → old.hasData = true → c.loss = .assumeHigh →
            new.picture.level = some c.hh ∧ new.picture.source = .assumedHigh) ∧
          (¬(x.state = .good ∧ y.state = .good) → new.disagree = old.disagree) ∧
          new.picture.disagree = new.disagree ∧ new.picture.time = s.partTime ∧ new.picture.running = flow ∧
          new.picture.primary = ⟨x.state, if x.state = .lost ∨ x.ring.length ≠ 8 then none else some (x.ring.sum / 8)⟩ ∧
          new.picture.partner = ⟨y.state, if y.state = .lost ∨ y.ring.length ≠ 8 then none else some (y.ring.sum / 8)⟩ ∧
          new.picture.entries = new.ring.length ∧ new.picture.substituted = new.ring.countP (·.substituted) ∧
          new.picture.arrivals = ((s.cfg.heights i).map fun h =>
            ⟨h.1, h.2, arrivalTime c new.picture.level new.picture.valid new.picture.netRise h.2⟩) ∧
          (new.picture.level = none → new.ring = old.ring ∧ new.hasData = old.hasData) ∧
          (∀ l, new.picture.level = some l → new.hasData = true ∧
            new.ring = (if old.ring.length < 16 then old.ring else old.ring.tail) ++
              [⟨l, decide (new.picture.source = .held ∨ new.picture.source = .assumedHigh), 2 * flow⟩]) ∧
          (new.picture.valid = true ↔ 4 ≤ new.ring.length ∧ (∀ e ∈ new.ring, e.substituted = false) ∧ new.picture.level ≠ none) ∧
          (new.picture.valid = false → new.picture.inflow = 0 ∧ new.picture.netRise = 0) ∧
          (new.picture.valid = true → ∀ e1 rest, new.ring = e1 :: rest →
            new.picture.inflow = max (-32768) (min 32767
              (((volume c (rest.getLastD e1).level : Int) - volume c e1.level + (rest.map (·.pumped)).sum).tdiv (2 * rest.length))) ∧
            new.picture.netRise = max (-32768) (min 32767 (new.picture.inflow - flow)))))

/-- R24 whole: the volume held at a level, which rises with the level at every level for the areas the configuration allows. -/
def Obligations.VolumeOfTwoPrisms : Prop :=
  ∀ (c : SumpCfg) (level : Nat),
    (level ≤ c.brim → volume c level = level * c.area) ∧
    (c.brim < level → volume c level = c.brim * c.area + (level - c.brim) * c.floor) ∧
    (1 ≤ c.area → 1 ≤ c.floor → ∀ higher, level < higher → volume c level < volume c higher) ∧
    (c.area ≤ 100 → 100 ≤ c.brim → c.brim ≤ 3000 → c.floor ≤ 5000 → level ≤ 6000 → volume c level ≤ 29510000)

/-- R28 whole: the arrival time by the first condition that holds; it lies within 0..65535 s and is 0 exactly when the level has reached the height. -/
def Obligations.ArrivalTimeByTheFirstCondition : Prop :=
  ∀ (c : SumpCfg) (level : Option Nat) (valid : Bool) (netRise : Int) (height : Nat),
    (level = none → arrivalTime c level valid netRise height = 65535) ∧
    (∀ l, level = some l → height ≤ l → arrivalTime c level valid netRise height = 0) ∧
    (∀ l, level = some l → l < height → valid = false ∨ netRise ≤ 0 → arrivalTime c level valid netRise height = 65535) ∧
    (∀ l, level = some l → l < height → valid = true → 0 < netRise →
      let q := ((volume c height : Int) - volume c l).tdiv netRise
      (arrivalTime c level valid netRise height : Int) = if q < 1 then 1 else if 65534 < q then 65534 else q) ∧
    arrivalTime c level valid netRise height ≤ 65535 ∧
    (arrivalTime c level valid netRise height = 0 ↔ ∃ l, level = some l ∧ height ≤ l)

/-- R48, R49 whole: at a picture of its sump, an enabled rule reads the quantity it names, the level when the picture has one, the inflow or net rise when it
has a level and the inflow is VALID, and moves by its state and by whether its condition holds; at a picture that does not count it, of another sump, or
disabled, it stands as it is. -/
def Obligations.TripRuleMovesByItsTable : Prop :=
  ∀ (s : State) (r : Fin 16) (i : Fin 4),
    let c := s.cfg.rules[r]
    let old := s.rules[r]
    let pic := s.sumps[i].picture
    let reads := fun (q : Int) => ∃ l : Nat, pic.level = some l ∧
      ((c.quantity = .level ∧ q = l) ∨ (c.quantity = .inflow ∧ pic.valid = true ∧ q = pic.inflow) ∨
        (c.quantity = .netRise ∧ pic.valid = true ∧ q = pic.netRise))
    (c.enable = false ∨ c.sump ≠ i → s.stepRule r i = s) ∧
    (pic.level = none ∨ (c.quantity ≠ .level ∧ pic.valid = false) → s.stepRule r i = s) ∧
    ∀ q, c.enable = true → c.sump = i → reads q →
      let holds := (c.cond.below = true ∧ q < c.threshold) ∨ (c.cond.at_ = true ∧ q = c.threshold) ∨ (c.cond.above = true ∧ c.threshold < q)
      ∃ t : State, s.stepRule r i = t ∧ t = { s with rules := s.rules.set r t.rules[r], ports := t.ports } ∧
        (old.state = .idle → holds → c.hold = 1 → t.rules[r] = { state := .fired } ∧ s.Raised t [(.ruleFired, r.val)]) ∧
        (old.state = .idle → holds → c.hold ≠ 1 → t.rules[r] = { state := .counting, trueCount := 1 } ∧ t.ports = s.ports) ∧
        (old.state = .idle → ¬holds → t.rules[r] = old ∧ t.ports = s.ports) ∧
        (old.state = .counting → holds → c.hold ≤ old.trueCount + 1 → t.rules[r] = { state := .fired } ∧ s.Raised t [(.ruleFired, r.val)]) ∧
        (old.state = .counting → holds → old.trueCount + 1 < c.hold →
          t.rules[r] = { old with trueCount := old.trueCount + 1 } ∧ t.ports = s.ports) ∧
        (old.state = .counting → ¬holds → t.rules[r] = { old with state := .idle, trueCount := 0 } ∧ t.ports = s.ports) ∧
        (old.state = .fired → holds → t.rules[r] = { old with falseCount := 0 } ∧ t.ports = s.ports) ∧
        (old.state = .fired → ¬holds → c.release ≤ old.falseCount + 1 → t.rules[r] = {} ∧ s.Raised t [(.ruleReleased, r.val)]) ∧
        (old.state = .fired → ¬holds → old.falseCount + 1 < c.release →
          t.rules[r] = { old with falseCount := old.falseCount + 1 } ∧ t.ports = s.ports)

/-- R34, R36, R37: the recomputed sump state by the first row that holds, with the alert and HH levels in force, and SUMP_STATE exactly when it changes;
nothing else changes. A feed's report (R37) makes that recomputation alone, and when it brings the sump into FLOOD, AUTO is set on the sump's enabled
barriers at that moment (R45). A picture (R34, R35, R45) brings the configured levels and the barriers' reopen heights (R102) into force, recomputes, and
with a level sets AUTO on each enabled barrier of the sump whose close height is reached, whose arrival lies within its close lead, while the sump is
FLOOD, or while a CLOSE_ALL rule of the sump is FIRED; AUTO that stands is never removed.
Rests on the model's choices of log 37, 45, 47, 52 and 56. -/
def Obligations.SumpStateAndBarrierClosure : Prop :=
  ∀ (s : State) (i : Fin 4),
    let level := s.sumps[i].picture.level
    let ofSump := fun (f : Fin 12) => s.cfg.feeds[f].enable = true ∧ s.feeds[f].items.sump = i
    let auto := fun (f : Fin 12) => s.feeds[f].demand.predict = true ∨ s.feeds[f].demand.hard = true
    let fires := fun (t : State) (a : RuleAction) => ∃ r : Fin 16, t.rules[r].state = .fired ∧ s.cfg.rules[r].sump = i ∧ s.cfg.rules[r].action = a
    let flood := fun (t : State) => (∃ l, level = some l ∧ t.sumps[i].hh ≤ l) ∨
      ∃ f, ofSump f ∧ (s.feeds[f].state = .shedding ∨ s.feeds[f].state = .shed) ∧ auto f
    let alert := fun (t : State) => (∃ l, level = some l ∧ t.sumps[i].alert ≤ l) ∨
      (∃ f, ofSump f ∧ (s.feeds[f].state = .warned ∨ s.feeds[f].state = .deferred ∨ (s.feeds[f].state = .shedWait ∧ auto f))) ∨ fires t .alert
    let byRows := fun (t : State) =>
      (level = none → t.sumps[i].state = .calm) ∧
      (level ≠ none → flood t → t.sumps[i].state = .flood) ∧
      (level ≠ none → ¬flood t → alert t → t.sumps[i].state = .alert) ∧
      (level ≠ none → ¬flood t → ¬alert t → t.sumps[i].state = .calm)
    let shut := fun (b : Fin 6) => { s.barriers[b] with closure := { s.barriers[b].closure with auto := true } }
    let closed := fun (t : State) (b : Fin 6) (sets : Prop) =>
      (¬sets → t.barriers[b] = s.barriers[b]) ∧ (sets → t.barriers[b] = s.barrierAfter b (shut b))
    let mine := fun (b : Fin 6) => s.cfg.barriers[b].enable = true ∧ s.cfg.barriers[b].sump = i ∧ s.barriers[b].closure.auto = false
    (let t := s.recomputeSump i;
      byRows t ∧ t = { s with sumps := s.sumps.set i { s.sumps[i] with state := t.sumps[i].state }, ports := t.ports } ∧
      s.Raised t (if t.sumps[i].state = s.sumps[i].state then [] else [(.sumpState, i.val)])) ∧
    (let t := s.handle (.feedReport i);
      let floods := s.sumps[i].state ≠ .flood ∧ t.sumps[i].state = .flood;
      byRows t ∧ s.Raised t (if t.sumps[i].state = s.sumps[i].state then [] else [(.sumpState, i.val)]) ∧
      (∀ b : Fin 6, closed t b (floods ∧ mine b)) ∧
      t = { s with sumps := s.sumps.set i { s.sumps[i] with state := t.sumps[i].state }, barriers := t.barriers, ports := t.ports, work := t.work } ∧
      t.work = s.work ++ (List.finRange 6).flatMap fun (b : Fin 6) =>
        if t.barriers[b].closure = s.barriers[b].closure then [] else s.barrierTold t b (shut b)) ∧
    (let t := s.handle (.pictureToPev i);
      byRows t ∧ t.sumps[i].alert = s.cfg.sumps[i].alert ∧ t.sumps[i].hh = s.cfg.sumps[i].hh ∧ (∀ b : Fin 6, t.sumps[i].reopen[b] = s.cfg.barriers[b].reopenHeight) ∧
      (∀ p, t.latched p .sumpState i = (s.latched p .sumpState i || decide (t.sumps[i].state ≠ s.sumps[i].state))) ∧
      (level = none → t.barriers = s.barriers ∧ t.rules = s.rules) ∧
      ∀ l, level = some l →
        (∀ b : Fin 6, closed t b (mine b ∧ (s.cfg.barriers[b].closeHeight ≤ l ∨ s.barrierArrival b ≤ s.cfg.barriers[b].closeLead ∨
          t.sumps[i].state = .flood ∨ fires t .closeAll))) ∧
        (∀ b : Fin 6, t.barriers[b].closure ≠ s.barriers[b].closure → ∀ n ∈ s.barrierTold t b (shut b), n ∈ t.work) ∧
        ∀ r : Fin 16, t.rules[r] = (s.stepRule r i).rules[r])

/-- R39 to R43: the pumps of a sump at a picture. With the level at or above the lead start, a token pump that is not eligible passes the token to the next
eligible pump in ring order, and AUTO is placed on the token pump and, at or above the lag start, on the next eligible one; at HH on every pump eligible
under the override, with the override flag; while a START_ALL rule is FIRED on every eligible one. Below HH every override flag goes. At or below the stop
level AUTO goes from every pump of the sump, unless START_ALL is FIRED, and a RUNNING pump past its min run that nothing demands then rests (R52, R56). The
lead-ran flag is set while the token pump is RUNNING under AUTO. A picture without a level changes no demand. A departure from RUNNING (R43) counts a duty
of the token pump that ran as lead, and passes the token at the duty weight.
Rests on the model's choices of log 20, 24, 25, 45 and 52. -/
def Obligations.PictureSetsAutoOnPumps : Prop :=
  ∀ (s : State) (i : Fin 4),
    let c := s.cfg.sumps[i]
    let old := s.sumps[i]
    let eligible := fun (m : Fin 8) (ov : Bool) =>
      s.cfg.pumps[m].enable = true ∧ s.pumps[m].state ≠ .locked ∧ s.pumps[m].state ≠ .failed ∧ s.pumps[m].locked = false ∧
        (ov = true ∨ 0 < s.pumps[m].budget)
    let place := fun (k g : Fin 8) => (g.val + 8 - k.val) % 8
    let next := fun (k g : Fin 8) => g ≠ k ∧ s.cfg.pumps[g].sump = i ∧ eligible g false ∧
      ∀ h : Fin 8, h ≠ k → s.cfg.pumps[h].sump = i → eligible h false → place k g ≤ place k h
    (∀ l, old.picture.level = some l → c.ordered = true →
      let t := s.handle (.pictureToPev i)
      let new := t.sumps[i]
      let startAll := ∃ r : Fin 16, t.rules[r].state = .fired ∧ s.cfg.rules[r].sump = i ∧ s.cfg.rules[r].action = .startAll
      let passed := c.lead ≤ l ∧ ∃ k, old.token = some k ∧ ¬eligible k false
      (¬passed → new.token = old.token ∧ new.duty = old.duty) ∧
      (passed → new.duty = 0 ∧ ∀ k, old.token = some k →
        (∀ g, next k g → new.token = some g) ∧ ((∀ g, ¬next k g) → new.token = some k)) ∧
      (new.leadRan = true ↔ (old.leadRan = true ∧ ¬passed) ∨
        ∃ k, new.token = some k ∧ s.pumps[k].state = .running ∧ (s.pumps[k].demand.auto = true ∨ (c.lead ≤ l ∧ eligible k false))) ∧
      (∀ m : Fin 8,
        let p := s.pumps[m]
        let stops := l ≤ c.stop ∧ ¬startAll
        let placed := (c.lead ≤ l ∧ new.token = some m ∧ eligible m false) ∨ (c.lag ≤ l ∧ ∃ k, new.token = some k ∧ next k m) ∨
          (c.hh ≤ l ∧ eligible m true) ∨ (startAll ∧ eligible m (decide (c.hh ≤ l)))
        let acts := fun (d : DemandSet) => d.c = true ∨ (p.locked = false ∧ (d.auto = true ∨ d.a = true ∨ d.b = true))
        let d := t.pumps[m].demand
        (s.cfg.pumps[m].sump ≠ i → new.token ≠ some m → t.pumps[m] = p ∧ t.drivers[runD m] = s.drivers[runD m]) ∧
        (s.cfg.pumps[m].sump = i →
          d = { p.demand with auto := d.auto } ∧ (d.auto = true ↔ ¬stops ∧ (p.demand.auto = true ∨ placed)) ∧
          (c.hh ≤ l → t.pumps[m].override = if eligible m true then true else p.override) ∧ (l < c.hh → t.pumps[m].override = false) ∧
          (¬(p.state = .running ∧ p.minRunElapsed = true ∧ ¬acts d) →
            t.pumps[m] = { p with demand := d, override := t.pumps[m].override } ∧ t.drivers[runD m] = s.drivers[runD m]) ∧
          (p.state = .running → p.minRunElapsed = true → ¬acts d → p.demand.auto = true → stops →
            t.pumps[m] = { p with
              demand := d, override := false, state := .rest, minRun := none, noFlow := none, minOff := some (s.cfg.pumps[m].minOff * 1000) } ∧
            t.drivers[runD m] = { s.drivers[runD m] with commanded := false, energised := false } ∧
            .sarFreed m ∈ t.work ∧ .pumpLeft m i ∈ t.work ∧ .pumpNews m .leftRunning ∈ t.work) ∧
          (∀ n ∈ s.sarTold t m, n ∈ t.work))) ∧
      t = { s with
        pumps := t.pumps, drivers := t.drivers, barriers := t.barriers, rules := t.rules, ports := t.ports, work := t.work
        sumps := s.sumps.set i { new with ring := old.ring, hasData := old.hasData, disagree := old.disagree, picture := old.picture } } ∧
      (∀ k, k ≠ i → t.sumps[k] = s.sumps[k]) ∧ s.work <+: t.work) ∧
    (old.picture.level = none →
      let t := s.handle (.pictureToPev i)
      t = { s with sumps := s.sumps.set i t.sumps[i], ports := t.ports } ∧
        t.sumps[i] = { old with
          state := .calm, alert := c.alert, hh := c.hh, reopen := s.cfg.barriers.map (·.reopenHeight), leadRan := t.sumps[i].leadRan }) ∧
    ∀ m : Fin 8,
      let t := s.handle (.pumpLeft m i)
      (¬(old.token = some m ∧ old.leadRan = true) → t = s) ∧
      (old.token = some m → old.leadRan = true →
        (old.duty + 1 < c.weight → t = { s with sumps := s.sumps.set i { old with duty := old.duty + 1, leadRan := false } }) ∧
        (c.weight ≤ old.duty + 1 →
          (∀ g, next m g → t = { s with sumps := s.sumps.set i { old with token := some g, duty := 0, leadRan := false } }) ∧
          ((∀ g, ¬next m g) → t = { s with sumps := s.sumps.set i { old with duty := 0, leadRan := false } })))

/-! ### Pumps and the pump supply (chapters 4 and 5) -/

/-- PROVING_TIMER_EXPIRY in STARTING (R55) and NO_FLOW_TIMER_EXPIRY in RUNNING (R57): the entry to FAILED of R61, run output OFF, all timers stopped, failure
kind, PUMP_FAILED, and the notices in the order of R65; the demand set is kept.
Rests on the model's choices of log 8 and 38. -/
def Obligations.ProvingAndNoFlowExpiriesFailThePump : Prop :=
  ∀ (s : State) (m : Fin 8) (picks : Picks), s.powered = true →
    let p := s.pumps[m]
    let i := s.cfg.pumps[m].sump
    let failed := fun (kind : FaultKind) =>
      { p with state := .failed, failure := some kind, proving := none, minRun := none, noFlow := none, minOff := none }
    let off := { s.drivers[runD m] with commanded := false, energised := false }
    (p.state = .starting → p.proving.isSome = true →
      ∃ u : State, exec (.provingTimerExpiry m picks) s = .next (u.settled picks) ∧ s.Raised u [(.pumpFailed, m.val)] ∧
        u = { s with
          pumps := s.pumps.set m (failed .pumpNotProved), drivers := s.drivers.set (runD m) off, ports := u.ports
          work := [.sarFreed m,
            .fault ⟨.pumpNotProved, some (.pump m), s.sumps[i].picture.level, s.partTime, .flowAtGrant p.flowAtGrant⟩,
            .pumpNews m (.failed .pumpNotProved)] }) ∧
    (p.state = .running → p.noFlow.isSome = true →
      ∃ u : State, exec (.noFlowTimerExpiry m picks) s = .next (u.settled picks) ∧ s.Raised u [(.pumpFailed, m.val)] ∧
        u = { s with
          pumps := s.pumps.set m (failed .pumpNoFlow), drivers := s.drivers.set (runD m) off, ports := u.ports
          work := [.sarFreed m, .pumpLeft m i, .pumpNews m .leftRunning,
            .fault ⟨.pumpNoFlow, some (.pump m), s.sumps[i].picture.level, s.partTime, .runSeconds ((s.timeMs - p.runningSince) / 1000)⟩,
            .pumpNews m (.failed .pumpNoFlow)] })

/-- MIN_RUN_TIMER_EXPIRY in RUNNING (R56): with an empty acting set the pump rests at once, its output OFF and its slot freed; with a demand it runs on,
the flag set. MIN_OFF_TIMER_EXPIRY in REST (R58, R53): OFF, or LOCKED with the locked flag, and pending at once when the pump is enabled, wanted and has
budget or the override. HOUR_RELOAD (R64): every budget is set to its starts per hour, the timer runs its next 3600 s, and the Supply Arbiter is told of
each pump that thereby becomes pending; nothing else changes.
Rests on the model's choices of log 8. -/
def Obligations.MinRunMinOffAndHourReload : Prop :=
  (∀ (s : State) (m : Fin 8) (picks : Picks), s.powered = true → s.pumps[m].state = .running → s.pumps[m].minRun.isSome = true →
      let p := s.pumps[m]
      let wanted := p.demand.c = true ∨ (p.locked = false ∧ (p.demand.auto = true ∨ p.demand.a = true ∨ p.demand.b = true))
      (¬wanted → exec (.minRunTimerExpiry m picks) s = .next
        ({ s with
          pumps := s.pumps.set m
            { p with state := .rest, minRun := none, minRunElapsed := true, noFlow := none, minOff := some (s.cfg.pumps[m].minOff * 1000) }
          drivers := s.drivers.set (runD m) { s.drivers[runD m] with commanded := false, energised := false }
          work := [.sarFreed m, .pumpLeft m s.cfg.pumps[m].sump, .pumpNews m .leftRunning] }.settled picks)) ∧
      (wanted → exec (.minRunTimerExpiry m picks) s = .next
        ({ s with pumps := s.pumps.set m { p with minRun := none, minRunElapsed := true }, work := [] }.settled picks))) ∧
  (∀ (s : State) (m : Fin 8) (picks : Picks), s.powered = true → s.pumps[m].state = .rest → s.pumps[m].minOff.isSome = true →
      let p := s.pumps[m]
      let acting : DemandSet := if p.locked then { c := p.demand.c } else p.demand
      let pending := s.cfg.pumps[m].enable = true ∧ (acting.auto = true ∨ acting.a = true ∨ acting.b = true ∨ acting.c = true) ∧
        (0 < p.budget ∨ (acting.auto = true ∧ p.override = true))
      ∀ news : List Notice, (pending → news = [.sarPending m acting]) → (¬pending → news = []) →
        exec (.minOffTimerExpiry m picks) s = .next
          ({ s with
            pumps := s.pumps.set m { p with state := if p.locked then .locked else .off, minOff := none }
            work := news }.settled picks)) ∧
  ∀ (s : State) (picks : Picks), s.powered = true →
    ∃ u : State, exec (.hourReload picks) s = .next (u.settled picks) ∧
      (∀ m : Fin 8, u.pumps[m] = { s.pumps[m] with budget := s.cfg.pumps[m].starts }) ∧
      u = { s with
        pumps := u.pumps, hourLeft := 3600000
        work := (List.finRange 8).flatMap fun (m : Fin 8) =>
          if u.pumpPending m then if s.pumpPending m then [] else [.sarPending m s.pumps[m].acting]
          else if s.pumpPending m then [.sarNotPending m] else [] }

/-- The Supply Arbiter (R74 to R79). A report of a pending pump or of another acting set is kept with the set; on a report of a pending pump, a freed slot,
a grant taken and a grant handed back it looks: while no grant is outstanding, a slot is free and a pump waits, the first pump in grant order is granted
and counted. Protective pumps go first, by sump in ring order after the pointer and by index within the sump; then port pumps, by the oldest active URGENT
PUMP_START that names them, by the oldest active ROUTINE one, by index. A grant handed back lowers the count and brings back the former pointer. -/
def Obligations.SupplyGrantsInOrder : Prop :=
  ∀ (s : State) (m : Fin 8),
    let limit := s.cfg.supplyLimit
    let turn := fun (pointer : Option (Fin 4)) (i : Fin 4) => match pointer with
      | none => i.val
      | some k => (i.val + 3 - k.val) % 4
    let starts := fun (h : Fin 8) (urgent : Bool) (n : Nat) =>
      ∃ p : Port, ∃ e ∈ (s.ordersOf p).queue, e.active = true ∧ e.kind = .pumpStart ∧ e.target = .pump h ∧ e.urgent = urgent ∧ e.seq = n
    let oldest := fun (g h : Fin 8) (urgent : Bool) => ∃ n, starts g urgent n ∧ ∀ k, starts h urgent k → n ≤ k
    let named := fun (h : Fin 8) (urgent : Bool) => ∃ n, starts h urgent n
    let before := fun (g h : Fin 8) => oldest g h true ∨
      (¬named g true ∧ ¬named h true ∧ (oldest g h false ∨ (¬named g false ∧ ¬named h false ∧ g ≤ h)))
    let others := fun (k : Fin 8) => s.sar.waiting.filter (·.pump != k)
    let looks := fun (a : Sar) (t : State) =>
      (limit ≤ a.count ∨ a.waiting = [] → t = { s with sar := a }) ∧
      (a.count < limit → a.waiting ≠ [] → ∃ g ∈ a.waiting,
        t = { s with
          sar := { count := a.count + 1, waiting := a.waiting.filter (·.pump != g.pump), outstanding := some (g.pump, a.pointer)
                   pointer := if g.acting.auto then some s.cfg.pumps[g.pump].sump else a.pointer }
          work := s.work ++ [.grantPump g.pump] } ∧
        (∀ h ∈ a.waiting, h.acting.auto = true → g.acting.auto = true ∧
          (turn a.pointer s.cfg.pumps[g.pump].sump < turn a.pointer s.cfg.pumps[h.pump].sump ∨
            (s.cfg.pumps[g.pump].sump = s.cfg.pumps[h.pump].sump ∧ g.pump ≤ h.pump))) ∧
        (g.acting.auto = false → ∀ h ∈ a.waiting, h.acting.auto = false → before g.pump h.pump))
    (∀ d : DemandSet,
      (s.sar.outstanding = none → looks { s.sar with waiting := others m ++ [⟨m, d⟩] } (s.handle (.sarPending m d))) ∧
      (s.sar.outstanding ≠ none → s.handle (.sarPending m d) = { s with sar := { s.sar with waiting := others m ++ [⟨m, d⟩] } }) ∧
      s.handle (.sarActing m d) =
        { s with sar := { s.sar with waiting := s.sar.waiting.map fun (w : Waiting) => if w.pump = m then { w with acting := d } else w } }) ∧
    s.handle (.sarNotPending m) = { s with sar := { s.sar with waiting := others m } } ∧
    (s.sar.outstanding = none → looks { s.sar with count := s.sar.count - 1 } (s.handle (.sarFreed m))) ∧
    (s.sar.outstanding ≠ none → s.handle (.sarFreed m) = { s with sar := { s.sar with count := s.sar.count - 1 } }) ∧
    looks { s.sar with outstanding := none } (s.handle (.sarTaken m)) ∧
    ∀ former, s.sar.outstanding = some (m, former) →
      looks { s.sar with count := s.sar.count - 1, outstanding := none, pointer := former } (s.handle (.sarHandedBack m))

/-- What reaches the Pump Controller of one pump. A flow switch change (R55, R57): to MADE it proves a STARTING pump and stops the no-flow timer of a
RUNNING one, to OPEN it starts that timer at 5 s. An overload accepted MADE (R59) and a driver fault report on the run output (R60): entry to FAILED. A
grant (R54, R63): a pump that is no longer pending hands it back; a pending one takes its budget, with PUMP_BUDGET_OUT when none is left and
BUDGET_OVERRIDE when there was none, commands its output ON and enters STARTING, and an overload that stands MADE fails it at once. Every other change
leaves everything as it stands. -/
def Obligations.PumpContactsFaultsAndGrants : Prop :=
  ∀ (s : State) (m : Fin 8),
    let p := s.pumps[m]
    let c := s.cfg.pumps[m]
    let onSupply := p.state = .starting ∨ p.state = .running
    (∀ made : Bool,
      let t := s.handle (.contact (flowK m) made)
      (p.state = .starting → made = true → t = { s with
        pumps := s.pumps.set m
          { p with state := .running, proving := none, minRun := some (c.minRun * 1000), minRunElapsed := false, runningSince := s.timeMs }
        work := s.work ++ [.pumpNews m .running] }) ∧
      (p.state = .running → t = { s with pumps := s.pumps.set m { p with noFlow := if made then none else some 5000 } }) ∧
      (p.state ≠ .running → ¬(p.state = .starting ∧ made = true) → t = s)) ∧
    (∀ made : Bool,
      let t := s.handle (.contact (overloadK m) made)
      let trips := made = true ∧ c.enable = true ∧ (p.state = .off ∨ p.state = .rest ∨ onSupply)
      (trips → s.PumpFails t m .pumpOverload (.pumpState p.state)) ∧ (¬trips → t = s)) ∧
    (∀ k : DriverFault,
      let t := s.handle (.driverFault (runD m) k)
      (onSupply → s.PumpFails t m .driverFault (.driver (runD m) k)) ∧ (¬onSupply → t = s)) ∧
    (let t := s.handle (.grantPump m);
      let pending := c.enable = true ∧ (p.state = .off ∨ p.state = .locked) ∧ p.Wanted ∧
        (0 < p.budget ∨ (p.locked = false ∧ p.demand.auto = true ∧ p.override = true));
      (¬pending → t = { s with work := s.work ++ [.sarHandedBack m] }) ∧
      (pending → ∃ u : State, s.Raised u (if p.budget ≤ 1 then [(.pumpBudgetOut, m.val)] else []) ∧
        u = { s with
          pumps := s.pumps.set m
            { p with
              budget := p.budget - 1, state := .starting, proving := some (c.proving * 1000), flowAtGrant := s.contacts[flowK m].accepted }
          drivers := s.drivers.set (runD m) { s.drivers[runD m] with commanded := true, energised := s.drivers[runD m].latch.isNone }
          ports := u.ports
          work := s.work ++
            (if p.budget = 0 then [.fault ⟨.budgetOverride, some (.pump m), s.sumps[c.sump].picture.level, s.partTime, .starts c.starts⟩] else []) ++
            [.sarNotPending m] ++
            (match s.drivers[runD m].latch with
              | some k => [.driverFault (runD m) k]
              | none => []) ++
            [.sarTaken m, .pumpNews m .granted] } ∧
        (s.contacts[overloadK m].accepted = false → t = u) ∧
        (s.contacts[overloadK m].accepted = true → u.PumpFails t m .pumpOverload (.pumpState .starting))))

/-! ### Barriers and the drive (chapter 6) -/

/-- INCREMENT_TIMER_EXPIRY (R86, R87) in a travel state. At the home limit: FAULT with BARRIER_NO_LIMIT by R93. Before it the position moves one step and the
travel count rises; then the travel goes by its want, read as if it stopped there (R84): it goes on, an opening with a home order standing as HOMING; it turns
to the other direction with travel count 0, keeping its slot; or, wanted by nothing or disabled, it halts. A closure set that acts empties the home set, and
the homing is disturbed (R83). In any other state nothing happens. SEAL_TIMER_EXPIRY in CLOSED_UNSEALED (R89): the barrier stays, SEAL_FAIL goes to the Fault
Capture, BARRIER_FAULT is raised and the Order Queue Unit is told; with no seal timer running nothing happens.
Rests on the model's choices of log 8, 21, 41, 47 and 49. -/
def Obligations.IncrementAndSealExpiries : Prop :=
  (∀ (s : State) (b : Fin 6) (picks : Picks), s.powered = true →
      let r := s.barriers[b]
      let c := s.cfg.barriers[b]
      let home := c.closedCount + (c.closedCount + 7) / 8
      let runs := (r.state = .closing ∨ r.state = .opening ∨ r.state = .homing) ∧ r.increment.isSome = true
      let moved := { r with
        travel := r.travel + 1
        position := r.position.map fun x => if r.state = BarrierState.closing then (if x < c.closedCount then x + 1 else c.closedCount) else x - 1
        home := if r.Acts then {} else r.home }
      let bothOff := (s.drivers.set (driveCloseD b) { s.drivers[driveCloseD b] with commanded := false, energised := false }).set (driveOpenD b)
        { s.drivers[driveOpenD b] with commanded := false, energised := false }
      let told := if r.Acts ∧ r.home ≠ {} then [.barrierNews b .homingDisturbed] else []
      let becomes := fun (v : Barrier) (drivers : Vector Driver 44) (news : List Notice) =>
        exec (.incrementTimerExpiry b picks) s = .next ({ s with barriers := s.barriers.set b v, drivers := drivers, work := news }.settled picks)
      let goesOn := fun (st : BarrierState) => becomes { moved with state := st, increment := some c.interval } s.drivers told
      let turns := fun (st : BarrierState) (d e : Fin 44) (news : List Notice) =>
        becomes { moved with state := st, travel := 0, increment := some c.interval } (s.drivenOn d e) (s.drivenNews d ++ news)
      let closes := c.enable = true ∧ r.Acts
      let homes := c.enable = true ∧ ¬r.Acts ∧ r.home ≠ {}
      let opens := c.enable = true ∧ ¬r.Acts ∧ r.home = {} ∧ r.release = .openEnd ∧ r.releaseHeld = false ∧ r.position.isSome = true
      (¬runs → exec (.incrementTimerExpiry b picks) s = .next ({ s with work := [] }.settled picks)) ∧
      (runs → home ≤ r.travel + 1 →
        ∃ u : State, exec (.incrementTimerExpiry b picks) s = .next (u.settled picks) ∧ s.Raised u [(.barrierFault, b.val)] ∧
          u = { s with
            barriers := s.barriers.set b
              { moved with state := .fault, position := none, increment := none, sealTimer := none, home := {}, failure := some .barrierNoLimit }
            drivers := bothOff, ports := u.ports
            work := [.darFreed b,
              .fault ⟨.barrierNoLimit, some (.barrier b), s.sumps[c.sump].picture.level, s.partTime, .travel none (some r.state) (some (r.travel + 1))⟩,
              .barrierNews b (.faulted .barrierNoLimit)] }) ∧
      (runs → r.travel + 1 < home →
        (r.state = .closing →
          (closes → goesOn .closing) ∧ (homes → turns .homing (driveOpenD b) (driveCloseD b) []) ∧
          (opens → turns .opening (driveOpenD b) (driveCloseD b) [])) ∧
        (r.state = .opening →
          (closes → turns .closing (driveCloseD b) (driveOpenD b) (.barrierNews b .turned :: told)) ∧ (homes → goesOn .homing) ∧ (opens → goesOn .opening)) ∧
        (r.state = .homing →
          (closes → turns .closing (driveCloseD b) (driveOpenD b) [.barrierNews b .homingDisturbed]) ∧ (homes ∨ opens → goesOn .homing)) ∧
        (¬closes → ¬homes → ¬opens →
          becomes { moved with state := if r.position.isSome then .stopped else .unhomed, increment := none } bothOff
            (.darFreed b :: (if r.state = BarrierState.opening then [.barrierNews b .halted] else []) ++ told)))) ∧
  (∀ (s : State) (b : Fin 6) (picks : Picks), s.powered = true →
      let runs := s.barriers[b].state = .closedUnsealed ∧ s.barriers[b].sealTimer.isSome = true
      (¬runs → exec (.sealTimerExpiry b picks) s = .next ({ s with work := [] }.settled picks)) ∧
      (runs → ∃ u : State, exec (.sealTimerExpiry b picks) s = .next (u.settled picks) ∧ s.Raised u [(.barrierFault, b.val)] ∧
        u = { s with
          barriers := s.barriers.set b { s.barriers[b] with sealTimer := none }, ports := u.ports
          work := [.fault ⟨.sealFail, some (.barrier b), s.sumps[s.cfg.barriers[b].sump].picture.level, s.partTime,
              .sealTime s.cfg.barriers[b].sealTime⟩,
            .barrierNews b .sealFailed] }))

/-- The want of a barrier by the first row of R84 that holds (MODEL'S CHOICE, log 47: a release target that a LOCKOUT found does not count), and what
reaches the Barrier Controller of one barrier: a limit contact (R88, R90), the seal contact (R89), the drive overload and a driver fault report (R92, R93),
and a grant (R85), which starts the travel of the want or is handed back. After every result the wants are taken anew (R83, R84). A command ON to
a latched output hands on its report once more (R16). Every other change leaves everything as it stands.
Rests on the model's choices of log 21, 41 and 47. -/
def Obligations.BarrierWantsContactsFaultsAndGrants : Prop :=
  ∀ (s : State) (b : Fin 6),
    let r := s.barriers[b]
    let c := s.cfg.barriers[b]
    let met := s.contacts[sealK b].accepted
    let travels := r.state = .closing ∨ r.state = .opening ∨ r.state = .homing
    let loose := r.state = .unhomed ∨ r.state = .stopped
    let closed := r.state = .closedUnsealed ∨ r.state = .sealed
    let rests := loose ∨ closed ∨ r.state = .openEnd
    let off := fun (d : Fin 44) => { s.drivers[d] with commanded := false, energised := false }
    let moved := fun (t : State) (q : Barrier) (drivers : Vector Driver 44) (first last : List Notice) =>
      t = { s with
        barriers := s.barriers.set b (s.barrierAfter b q), drivers := drivers
        work := s.work ++ first ++ s.barrierTold t b q ++ last }
    let atClosed := fun (q : Barrier) => { q with
      state := if met then .sealed else .closedUnsealed, position := some c.closedCount, sealTimer := if met then none else some (c.sealTime * 1000) }
    let closedNews := .barrierNews b .closedUnsealed :: if met then [.barrierNews b .sealed] else []
    let atOpen := fun (q : Barrier) => { q with state := .openEnd, position := some 0, home := {}, sealTimer := none }
    let closes := c.enable = true ∧ r.Acts ∧ (loose ∨ r.state = .openEnd ∨ r.state = .locked)
    let homes := c.enable = true ∧ ¬r.Acts ∧ r.home ≠ {} ∧ (loose ∨ r.state = .openEnd ∨ r.state = .locked)
    let opens := c.enable = true ∧ ¬r.Acts ∧ ¬homes ∧ r.release = .openEnd ∧ r.releaseHeld = false ∧
      (r.state = .stopped ∨ closed ∨ (r.state = .locked ∧ r.position.isSome = true))
    ((r.want c.enable = .close ↔ closes) ∧ (r.want c.enable = .home ↔ homes) ∧ (r.want c.enable = .open_ ↔ opens)) ∧
    (∀ made : Bool,
      let t := s.handle (.contact (closedLimitK b) made)
      (r.state = .closing → made = true →
        moved t (atClosed { r with increment := none }) (s.drivers.set (driveCloseD b) (off (driveCloseD b))) (.darFreed b :: closedNews) []) ∧
      (rests → made = true → s.contacts[openLimitK b].accepted = true → s.BarrierFaults t b .barrierNoLimit none (.travel none none none)) ∧
      (loose → made = true → s.contacts[openLimitK b].accepted = false → moved t (atClosed r) s.drivers closedNews []) ∧
      (closed → made = false → moved t { r with state := .stopped, position := some c.closedCount, sealTimer := none } s.drivers [] []) ∧
      (r.state = .locked → moved t { r with position := none } s.drivers [] []) ∧
      (r.state = .opening ∨ r.state = .homing ∨ r.state = .fault ∨ (r.state = .closing ∧ made = false) ∨ (loose ∧ made = false) ∨
        (r.state = .openEnd ∧ made = false) ∨ (rests ∧ ¬loose ∧ made = true ∧ s.contacts[openLimitK b].accepted = false) → t = s)) ∧
    (∀ made : Bool,
      let t := s.handle (.contact (openLimitK b) made)
      (r.state = .opening ∨ r.state = .homing → made = true → ¬(c.enable = true ∧ r.Acts) →
        moved t (atOpen { r with increment := none }) (s.drivers.set (driveOpenD b) (off (driveOpenD b))) [.darFreed b, .barrierNews b .reachedOpen] []) ∧
      (r.state = .opening ∨ r.state = .homing → made = true → c.enable = true → r.Acts →
        moved t
          { r with
            state := .closing, position := some 0, travel := 0, increment := some c.interval, home := if r.state = .homing then {} else r.home }
          (s.drivenOn (driveCloseD b) (driveOpenD b))
          (s.drivenNews (driveCloseD b) ++ [.barrierNews b (if r.state = .homing then .homingDisturbed else .turned)]) []) ∧
      (rests → made = true → s.contacts[closedLimitK b].accepted = true → s.BarrierFaults t b .barrierNoLimit none (.travel none none none)) ∧
      (loose → made = true → s.contacts[closedLimitK b].accepted = false → moved t (atOpen r) s.drivers [.barrierNews b .reachedOpen] []) ∧
      (r.state = .openEnd → made = false → moved t { r with state := .stopped, position := some 0 } s.drivers [] []) ∧
      (r.state = .locked → moved t { r with position := none } s.drivers [] []) ∧
      (r.state = .closing ∨ r.state = .fault ∨ ((r.state = .opening ∨ r.state = .homing) ∧ made = false) ∨ (loose ∧ made = false) ∨
        (closed ∧ made = false) ∨ (rests ∧ ¬loose ∧ made = true ∧ s.contacts[closedLimitK b].accepted = false) → t = s)) ∧
    (∀ made : Bool,
      let t := s.handle (.contact (sealK b) made)
      (r.state = .closedUnsealed → made = true → moved t { r with state := .sealed, sealTimer := none } s.drivers [] [.barrierNews b .sealed]) ∧
      (r.state = .sealed → made = false → s.Raised t [(.sealLost, b.val)] ∧
        moved { t with ports := s.ports } { r with state := .closedUnsealed } s.drivers [] [.barrierNews b .closedUnsealed]) ∧
      (¬(r.state = .closedUnsealed ∧ made = true) → ¬(r.state = .sealed ∧ made = false) → t = s)) ∧
    (∀ made : Bool,
      let t := s.handle (.contact (driveOverloadK b) made)
      let trips := made = true ∧ c.enable = true ∧ (travels ∨ rests)
      (trips → s.BarrierFaults t b .barrierOverload r.position (.travel r.position (if travels then some r.state else none) (some r.travel))) ∧
      (¬trips → t = s)) ∧
    (∀ (d : Fin 44) (k : DriverFault), d = driveCloseD b ∨ d = driveOpenD b →
      let t := s.handle (.driverFault d k)
      (travels → s.BarrierFaults t b .driverFault r.position (.driver d k)) ∧ (¬travels → t = s)) ∧
    (let t := s.handle (.grantBarrier b);
      let started := fun (d e : Fin 44) (st : BarrierState) =>
        ∃ u : State,
          u = { s with
            barriers := s.barriers.set b { r with state := st, travel := 0, sealTimer := none, increment := some c.interval }
            drivers := s.drivenOn d e, work := s.work ++ [.darNoWant b, .darTaken b] ++ s.drivenNews d } ∧
          (s.contacts[driveOverloadK b].accepted = false → t = u) ∧
          (s.contacts[driveOverloadK b].accepted = true →
            u.BarrierFaults t b .barrierOverload r.position (.travel r.position (some st) (some 0)));
      (closes → started (driveCloseD b) (driveOpenD b) .closing) ∧ (homes → started (driveOpenD b) (driveCloseD b) .homing) ∧
      (opens → started (driveOpenD b) (driveCloseD b) .opening) ∧
      (¬closes → ¬homes → ¬opens → t = { s with work := s.work ++ [.darHandedBack b] }))

/-- The Drive Arbiter (R98 to R100). On a barrier's want, a freed slot, a grant taken and a grant handed back it looks: while no grant is outstanding, a
slot is free and a barrier waits, the first barrier is granted it, closers before openers and each kind in ring order after the pointer, which then names
it. A grant handed back frees its slot and brings back the former pointer. -/
def Obligations.DriveGrantsInOrder : Prop :=
  ∀ (s : State) (b : Fin 6),
    let turn := fun (pointer : Option (Fin 6)) (i : Fin 6) => match pointer with
      | none => i.val
      | some k => (i.val + 5 - k.val) % 6
    let others := s.dar.waiting.filter (·.1 != b)
    let freed := { s.dar with
      slot1 := if s.dar.slot1 = some b then none else s.dar.slot1, slot2 := if s.dar.slot2 = some b then none else s.dar.slot2 }
    let looks := fun (a : Dar) (t : State) =>
      ((a.slot1 ≠ none ∧ a.slot2 ≠ none) ∨ a.waiting = [] → t = { s with dar := a }) ∧
      (a.slot1 = none ∨ a.slot2 = none → a.waiting ≠ [] → ∃ g ∈ a.waiting,
        t = { s with
          dar := {
            slot1 := if a.slot1 = none then some g.1 else a.slot1, slot2 := if a.slot1 = none then a.slot2 else some g.1
            waiting := a.waiting.filter (·.1 != g.1), pointer := some g.1, outstanding := some (g.1, a.pointer) }
          work := s.work ++ [.grantBarrier g.1] } ∧
        ∀ h ∈ a.waiting, (h.2 = .close → g.2 = .close) ∧ (h.2 = g.2 → turn a.pointer g.1 ≤ turn a.pointer h.1))
    (∀ k : DriveKind,
      (s.dar.outstanding = none → looks { s.dar with waiting := others ++ [(b, k)] } (s.handle (.darWants b k))) ∧
      (s.dar.outstanding ≠ none → s.handle (.darWants b k) = { s with dar := { s.dar with waiting := others ++ [(b, k)] } })) ∧
    s.handle (.darNoWant b) = { s with dar := { s.dar with waiting := others } } ∧
    (s.dar.outstanding = none → looks freed (s.handle (.darFreed b))) ∧
    (s.dar.outstanding ≠ none → s.handle (.darFreed b) = { s with dar := freed }) ∧
    looks { s.dar with outstanding := none } (s.handle (.darTaken b)) ∧
    ∀ former, s.dar.outstanding = some (b, former) →
      looks { freed with outstanding := none, pointer := former } (s.handle (.darHandedBack b))

/-! ### Feeds and the coil (chapter 7) -/

/-- The Shed Sequencer handles one chain of a picture with a level, while a pulse or the recharge keeps the coil from serving (R105 to R108, R112). Every
feed of the chain: the hard trip; the warning; the predictive shed; the pull by a feed of higher rank that stands in SHED_WAIT under AUTO_PREDICT; the
restore conditions, judged on the chain as it then stands; and its place in the coil queue by the chain condition. Feeds of other chains stand. With an
idle coil and nothing queued, the hard trip of the only feed of its chain begins its pulse at once. A picture without a level judges no feed.
Rests on the model's choices of log 28, 40, 41, 48, 55 and 56. -/
def Obligations.PictureJudgesTheChain : Prop :=
  ∀ (s : State) (i c : Fin 4), s.CoilRight →
    let t := s.handle (.shsChain i c)
    (s.sumps[i].picture.level = none → t = s) ∧
    ∀ l, s.sumps[i].picture.level = some l →
      (∃ new, t = { s with feeds := t.feeds, coil := t.coil, drivers := t.drivers, ports := t.ports, work := s.work ++ new } ∧ s.FeedsMove t new) ∧
      (∀ f : Fin 12, s.cfg.feeds[f].chain ≠ c → s.coil.queue = [] ∨ s.coil.pulse.isSome = true ∨ s.coil.recharge.isSome = true →
        t.feeds[f] = s.feeds[f]) ∧
      (s.coil.pulse.isSome = true ∨ s.coil.recharge.isSome = true →
        t.drivers = s.drivers ∧ t.coil.pulse = s.coil.pulse ∧ t.coil.recharge = s.coil.recharge ∧ t.coil.check = s.coil.check ∧
        ∀ f : Fin 12, s.cfg.feeds[f].enable = true → s.cfg.feeds[f].chain = c →
          let k := s.cfg.feeds[f]
          let v := s.feeds[f]
          let w := t.feeds[f]
          let judged := v.items.sump = i
          let trips := judged ∧ v.items.trip ≤ l ∧ v.demand.hard = false ∧ v.state ≠ .shed ∧ v.state ≠ .shedding ∧ v.state ≠ .fault
          let lives := v.state = .live ∨ v.state = .warned
          let pulled := lives ∧ ∃ g : Fin 12, s.cfg.feeds[g].enable = true ∧ s.cfg.feeds[g].chain = c ∧ s.feeds[g].items.sump = i ∧
            k.rank < s.cfg.feeds[g].rank ∧ t.feeds[g].state = .shedWait ∧ t.feeds[g].demand.predict = true
          let near := s.feedArrival f ≤ v.items.lead
          let warns := s.feedArrival f ≤ v.items.lead + v.items.margin
          let own := judged ∧ ¬trips ∧ ¬pulled
          let sheds := (pulled ∧ v.preArm = none) ∨ (own ∧ near ∧ (v.state = .warned ∨ (v.state = .live ∧ v.preArm = none)))
          let armed := (pulled ∨ (own ∧ v.state = .live ∧ warns)) ∧ v.preArm ≠ none
          let wanted := w.demand = {} ∧ v.request = true ∧ (∃ m, s.sumps[v.items.sump].picture.level = some m ∧ m + v.items.band < v.items.trip)
          let higher := fun (ok : FeedState → Prop) => ∀ g : Fin 12, s.cfg.feeds[g].enable = true → s.cfg.feeds[g].chain = c →
            k.rank < s.cfg.feeds[g].rank → ok t.feeds[g].state
          let back := higher fun st => st = .live ∨ st = .warned ∨ st = .deferred ∨ st = .fault
          let waits := ¬higher fun st => st ≠ .shedWait
          let condition := w.demand.hard = true ∨ ∀ g : Fin 12, s.cfg.feeds[g].enable = true → s.cfg.feeds[g].chain = c →
            s.cfg.feeds[g].rank < k.rank → t.feeds[g].state = .shed ∨ t.feeds[g].state = .fault
          (w.demand = { v.demand with hard := v.demand.hard || decide trips, predict := v.demand.predict || decide sheds }) ∧
          (trips → w.deferral = none ∧ w.preArm = none) ∧
          (trips → v.state ≠ .restoreWait → v.state ≠ .restoring → w.state = .shedWait) ∧
          (¬trips → sheds → w.state = .shedWait) ∧
          (¬trips → armed → w.state = .deferred ∧ w.deferral = v.preArm ∧ w.preArm = none ∧ w.deferralUsed = true) ∧
          (own → v.state = .live → v.preArm = none → ¬near → warns → w.state = .warned ∧ w.clear = 0) ∧
          (own → v.state = .live → ¬warns → w = v) ∧
          (own → v.state = .warned → ¬near → warns → w = { v with clear := 0 }) ∧
          (own → v.state = .warned → ¬near → ¬warns → v.clear < 3 → w = { v with clear := v.clear + 1 }) ∧
          (own → v.state = .warned → ¬near → ¬warns → 3 ≤ v.clear → w.state = .live ∧ w.episode = false) ∧
          (¬judged → lives → ¬pulled → w = v) ∧
          (¬trips → v.state = .deferred ∨ v.state = .shedWait ∨ v.state = .shedding ∨ v.state = .restoring ∨ v.state = .fault → w = v) ∧
          (v.state = .restoring → w.state = .restoring) ∧
          (v.state = .shed ∨ v.state = .restoreWait →
            (wanted → back → w.state = .restoreWait) ∧
            (¬(wanted ∧ back) → v.state = .shed → w.state = .shed) ∧
            (v.state = .restoreWait → ¬wanted → w.state = .shed) ∧
            (v.state = .restoreWait → wanted → ¬back → (waits → w.state = .shed) ∧ (¬waits → w.state = .restoreWait)) ∧
            (w.request = true ↔ v.request = true ∧ (v.state = .shed ∨ w.demand = {}))) ∧
          (w.state = .shedWait → ((∃ e ∈ t.coil.queue, e.feed = f ∧ e.op = .shed) ↔ condition)) ∧
          (w.state = .restoreWait → ((∃ e ∈ t.coil.queue, e.feed = f ∧ e.op = .restore) ↔ wanted ∧ back)) ∧
          ∀ p, t.latched p .feedWarned f =
            (s.latched p .feedWarned f || decide (own ∧ v.state = .live ∧ warns ∧ v.preArm = none)) ∧
            t.latched p .deferEnded f = (s.latched p .deferEnded f ||
              decide (w.deferral = none ∧ (v.deferral ≠ none ∨ (trips ∧ pulled ∧ v.preArm ≠ none))))) ∧
      (∀ f : Fin 12, s.cfg.feeds[f].enable = true → s.cfg.feeds[f].chain = c → s.feeds[f].items.sump = i → (∀ g, s.cfg.feeds[g].chain = c → g = f) →
        s.feeds[f].state = .live ∨ s.feeds[f].state = .warned ∨ s.feeds[f].state = .deferred ∨ s.feeds[f].state = .shedWait →
        s.feeds[f].demand.hard = false → s.feeds[f].items.trip ≤ l → s.coil.queue = [] → s.coil.pulse = none → s.coil.recharge = none →
          t.feeds[f].state = .shedding ∧ t.feeds[f].demand = { s.feeds[f].demand with hard := true } ∧ t.coil.queue = [] ∧
          t.coil.pulse = some ⟨f, .shed, .hard, 200⟩ ∧ t.drivers = s.drivenOn (shedCoilD f) (restoreCoilD f))

/-- PULSE_END (R110): the coil goes OFF, the recharge runs 800 ms and the check pending 300 ms; with no pulse in progress nothing happens.
RECHARGE_TIMER_EXPIRY (R110): with an empty queue the coil becomes idle. The entry that goes before every other in service order is pulsed when it still
qualifies (R108, R112): it leaves the queue, its feed enters SHEDDING or RESTORING and its coil is commanded ON for 200 ms, a latched coil's report handed
on again (R16). One that stands alone and does not qualify leaves the queue, but for a shed that a restore given up in its chain lets join again.
Rests on the model's choices of log 8, 40, 41 and 56. -/
def Obligations.PulseEndAndRechargeExpiry : Prop :=
  (∀ (s : State) (picks : Picks), s.powered = true →
      (∀ w, s.coil.pulse = some w →
        let d := if w.op = .shed then shedCoilD w.feed else restoreCoilD w.feed
        exec (.pulseEnd picks) s = .next
          ({ s with
            coil := { s.coil with pulse := none, recharge := some 800, check := some { w with left := 300 } }
            drivers := s.drivers.set d { s.drivers[d] with commanded := false, energised := false }
            work := [] }.settled picks)) ∧
      (s.coil.pulse = none → exec (.pulseEnd picks) s = .next ({ s with work := [] }.settled picks))) ∧
  (∀ (s : State) (picks : Picks), s.powered = true → s.CoilRight → s.coil.recharge.isSome = true → s.coil.pulse = none →
      (s.coil.queue = [] → exec (.rechargeTimerExpiry picks) s = .next
        ({ s with coil := { s.coil with recharge := none }, work := [] }.settled picks)) ∧
      ∀ e ∈ s.coil.queue,
        let f := e.feed
        let v := s.feeds[f]
        let c := s.cfg.feeds[f]
        let hard := fun (x : CoilEntry) => s.feeds[x.feed].demand.hard
        let rank := fun (x : CoilEntry) => s.cfg.feeds[x.feed].rank
        let before := fun (x y : CoilEntry) => (x.op = .shed ∧ y.op = .restore) ∨
          (x.op = .shed ∧ y.op = .shed ∧ ((hard x = true ∧ hard y = false) ∨
            (hard x = hard y ∧ (rank x < rank y ∨ (rank x = rank y ∧ x.number < y.number))))) ∨
          (x.op = .restore ∧ y.op = .restore ∧ (rank y < rank x ∨ (rank x = rank y ∧ x.number < y.number)))
        let first := ∀ x ∈ s.coil.queue, x ≠ e → before e x
        let chained := fun (g : Fin 12) => s.cfg.feeds[g].enable = true ∧ s.cfg.feeds[g].chain = c.chain
        let qualifies :=
          (e.op = .shed ∧ (v.demand.hard = true ∨
            ∀ g : Fin 12, chained g → s.cfg.feeds[g].rank < c.rank → s.feeds[g].state = .shed ∨ s.feeds[g].state = .fault)) ∨
          (e.op = .restore ∧ v.demand = {} ∧ v.request = true ∧ (∃ l, s.sumps[v.items.sump].picture.level = some l ∧ l + v.items.band < v.items.trip) ∧
            ∀ g : Fin 12, chained g → c.rank < s.cfg.feeds[g].rank →
              s.feeds[g].state = .live ∨ s.feeds[g].state = .warned ∨ s.feeds[g].state = .deferred ∨ s.feeds[g].state = .fault)
        let d := if e.op = .shed then shedCoilD f else restoreCoilD f
        let other := if e.op = .shed then restoreCoilD f else shedCoilD f
        ∃ u : State, exec (.rechargeTimerExpiry picks) s = .next (u.settled picks) ∧
          u = { s with feeds := u.feeds, coil := u.coil, drivers := u.drivers, ports := u.ports, work := u.work } ∧ s.FeedsMove u u.work ∧
          (first → qualifies →
            u.feeds[f].state = (if e.op = .shed then .shedding else .restoring) ∧ u.feeds[f].demand = v.demand ∧
            u.feeds[f].deferral = (if e.op = .shed then none else v.deferral) ∧ (∀ x ∈ u.coil.queue, x.feed ≠ f) ∧
            u.coil.pulse = some ⟨f, e.op, if v.demand.hard then .hard else if v.demand.predict then .predict else .port, 200⟩ ∧
            u.coil.recharge = none ∧ u.drivers = s.drivenOn d other ∧ ∀ n ∈ s.drivenNews d, n ∈ u.work) ∧
          (s.coil.queue = [e] → ¬qualifies → (∀ g : Fin 12, chained g → s.feeds[g].state = .restoreWait → g = f) → (∀ x ∈ u.coil.queue, x.feed ≠ f) ∧
            u.feeds[f].state ≠ .shedding ∧ u.feeds[f].state ≠ .restoring))

/-- FEEDBACK_CHECK (R111, R117). Shed pulse: an OPEN contact brings SHED with the cause taken at the pulse and FEED_SHED, a restore request that stands being
tested then (R112); a MADE contact with a demand standing brings SHED_WAIT with the retry used, and with it used FAULT with FEED_FEEDBACK_MISMATCH; a MADE
contact with an empty set sends the feed toward live (R109). Restore pulse: a MADE contact with no demand brings LIVE and FEED_LIVE, with a demand SHED_WAIT,
an OPEN one FAULT. With no check pending nothing happens. An auxiliary contact change with no pulse and no check of the feed under way is manual operation
(R116): an opened feed is SHED, a closed one LIVE, with cause MANUAL, and a feed made LIVE against its set is shed again. A driver fault report on a coil in
its pulse (R117) ends the pulse, starts the recharge and brings FAULT; in any other state it has no effect.
Rests on the model's choices of log 8, 28, 40, 48, 56 and 62. -/
def Obligations.FeedChecksManualOperationAndDriverFaults : Prop :=
  (∀ (s : State) (picks : Picks), s.powered = true → s.coil.check = none →
    exec (.feedbackCheck picks) s = .next ({ s with work := [] }.settled picks)) ∧
  (∀ (s : State) (w : CoilWork) (picks : Picks), s.powered = true → s.CoilRight → s.coil.check = some w →
    let f := w.feed
    let v := s.feeds[f]
    let made := s.contacts[auxK f].accepted
    let demanded := v.demand.some
    ∃ u : State, exec (.feedbackCheck picks) s = .next (u.settled picks) ∧ u.coil.check = none ∧ u.feeds[f].demand = v.demand ∧
      u = { s with feeds := u.feeds, coil := u.coil, drivers := u.drivers, ports := u.ports, work := u.work } ∧ s.FeedsMove u u.work ∧
      let x := u.feeds[f]
      let ends := x.deferral = none ∧ (v.deferral ≠ none → u.latchedAll .deferEnded f = true)
      let shedAgain := (x.state = .shedWait ∨ x.state = .shedding) ∧ (s.CoilHeld → u.ShedTested f)
      let faults := x.state = .fault ∧ x.failure = some .feedbackMismatch ∧ x.retry = false ∧ x.preArm = none ∧ x.request = v.request ∧ ends ∧
        (∀ e ∈ u.coil.queue, e.feed ≠ f) ∧ (u.drivers[shedCoilD f].commanded = false ∧ u.drivers[restoreCoilD f].commanded = false ∧
          u.drivers[shedCoilD f].energised = false ∧ u.drivers[restoreCoilD f].energised = false) ∧ u.latchedAll .feedFault f = true ∧
        .fault ⟨.feedbackMismatch, some (.feed f), s.sumps[v.items.sump].picture.level, s.partTime, .operation w.op⟩ ∈ u.work ∧
        .feedNews f (.failed .feedbackMismatch) ∈ u.work
      (w.op = .shed → made = false →
        x.cause = w.cause ∧ x.retry = false ∧ x.request = v.request ∧ ends ∧ u.latchedAll .feedShed f = true ∧ .feedNews f .reachedShed ∈ u.work ∧
          (demanded = true ∨ v.request = false → x.state = .shed) ∧ (x.state = .shed ∨ x.state = .restoreWait ∨ x.state = .restoring) ∧
          (s.CoilHeld → u.RestoreTested f .shed)) ∧
      (w.op = .shed → made = true → demanded = true → v.retry = true → faults) ∧
      (w.op = .shed → made = true → demanded = true → v.retry = false → x.retry = true ∧ shedAgain) ∧
      (w.op = .shed → made = true → demanded = false → x.retry = false ∧ s.WentTowardLive u f { v with retry := false } u.work) ∧
      (w.op = .restore → made = true → demanded = false →
        x.state = .live ∧ x.request = false ∧ x.episode = false ∧ ends ∧ (∀ e ∈ u.coil.queue, e.feed ≠ f) ∧ u.latchedAll .feedLive f = true ∧
          .feedNews f .reachedLive ∈ u.work) ∧
      (w.op = .restore → made = true → demanded = true →
        shedAgain ∧ x.request = false ∧ u.latchedAll .feedLive f = true ∧ (v.request = true → .feedNews f .shedAgain ∈ u.work)) ∧
      (w.op = .restore → made = false → faults)) ∧
  ∀ (s : State) (f : Fin 12), s.CoilRight →
    let v := s.feeds[f]
    let busy := (∃ w, s.coil.pulse = some w ∧ w.feed = f) ∨ ∃ w, s.coil.check = some w ∧ w.feed = f
    (∀ made : Bool,
      let t := s.handle (.contact (auxK f) made)
      let opened := made = false ∧ (v.state = .live ∨ v.state = .warned ∨ v.state = .deferred ∨ v.state = .shedWait)
      let closed := made = true ∧ (v.state = .shed ∨ v.state = .restoreWait)
      let w := t.feeds[f]
      (busy ∨ (¬opened ∧ ¬closed) → t = s) ∧
      (¬busy → opened ∨ closed → w.demand = v.demand ∧ w.cause = .manual ∧ ∃ new,
        t = { s with feeds := t.feeds, coil := t.coil, drivers := t.drivers, ports := t.ports, work := s.work ++ new } ∧ s.FeedsMove t new ∧
        (opened → .feedNews f .reachedShed ∈ new) ∧ (closed → .feedNews f .reachedLive ∈ new)) ∧
      (¬busy → opened → w.deferral = none ∧ w.retry = false ∧ (v.state ≠ .shedWait → w.preArm = none) ∧ t.latchedAll .feedShed f = true ∧
        (v.deferral ≠ none → t.latchedAll .deferEnded f = true) ∧ (w.demand ≠ {} ∨ v.request = false → w.state = .shed ∧ ∀ e ∈ t.coil.queue, e.feed ≠ f) ∧
        (w.state = .shed ∨ w.state = .restoreWait ∨ w.state = .restoring) ∧ w.request = v.request ∧ (s.CoilHeld → t.RestoreTested f .shed)) ∧
      (¬busy → closed → w.request = false ∧ w.episode = false ∧ w.deferral = none ∧ t.latchedAll .feedLive f = true ∧
        (v.deferral ≠ none → t.latchedAll .deferEnded f = true) ∧ (v.demand = {} → w.state = .live ∧ ∀ e ∈ t.coil.queue, e.feed ≠ f) ∧
        (v.demand ≠ {} → (w.state = .shedWait ∨ w.state = .shedding) ∧ (s.CoilHeld → t.ShedTested f)))) ∧
    ∀ (d : Fin 44) (k : DriverFault), d = shedCoilD f ∨ d = restoreCoilD f →
      let t := s.handle (.driverFault d k)
      let w := t.feeds[f]
      ((∀ x, s.coil.pulse = some x → x.feed ≠ f) → t = s) ∧
      ∀ x, s.coil.pulse = some x → x.feed = f →
        w.state = .fault ∧ w.failure = some .driverFault ∧ w.demand = v.demand ∧ w.request = v.request ∧ w.deferral = none ∧ w.preArm = none ∧ w.retry = false ∧
        t.coil.pulse = none ∧ t.coil.recharge = some 800 ∧ (∀ e ∈ t.coil.queue, e.feed ≠ f) ∧
        (t.drivers[shedCoilD f].commanded = false ∧ t.drivers[restoreCoilD f].commanded = false ∧ t.drivers[shedCoilD f].energised = false ∧
          t.drivers[restoreCoilD f].energised = false) ∧
        t.latchedAll .feedFault f = true ∧ (v.deferral ≠ none → t.latchedAll .deferEnded f = true) ∧
        ∃ new, t = { s with feeds := t.feeds, coil := t.coil, drivers := t.drivers, ports := t.ports, work := s.work ++ new } ∧ s.FeedsMove t new ∧
          .fault ⟨.driverFault, some (.feed f), s.sumps[v.items.sump].picture.level, s.partTime, .driver d k⟩ ∈ new ∧
          .feedNews f (.failed .driverFault) ∈ new

/-- DEFERRAL_EXPIRY and PRE_ARM_EXPIRY (R115): a deferral in force ends with DEFER_ENDED. When the arrival lies within the lead time, a DEFERRED or SHED_WAIT
feed gains AUTO_PREDICT, stands in SHED_WAIT and pulls the LIVE and WARNED feeds below it in its chain (R107); else a DEFERRED one enters WARNED with its
clear count 0, or DEFERRED again by its pre-arm, and one in SHED_WAIT waits on. With no deferral in force nothing happens. A pre-arm is removed without an
event.
Rests on the model's choices of log 8, 28, 40, 48 and 56. -/
def Obligations.DeferralAndPreArmExpire : Prop :=
  ∀ (s : State) (f : Fin 12) (picks : Picks), s.powered = true →
    let v := s.feeds[f]
    let c := s.cfg.feeds[f]
    let near := s.feedArrival f ≤ v.items.lead
    (v.deferral = none → exec (.deferralExpiry f picks) s = .next ({ s with work := [] }.settled picks)) ∧
    (s.CoilRight → v.deferral.isSome = true →
      ∃ u : State, exec (.deferralExpiry f picks) s = .next (u.settled picks) ∧ u.latchedAll .deferEnded f = true ∧
        u = { s with feeds := u.feeds, coil := u.coil, drivers := u.drivers, ports := u.ports, work := u.work } ∧ s.FeedsMove u u.work ∧
        let x := u.feeds[f]
        let predicted := fun (g : Fin 12) => u.feeds[g].demand = { s.feeds[g].demand with predict := true } ∧
          (u.feeds[g].state = .shedWait ∨ u.feeds[g].state = .shedding) ∧ (s.CoilHeld → u.ShedTested g)
        let armed := fun (g : Fin 12) => u.feeds[g].demand = s.feeds[g].demand ∧ u.feeds[g].state = .deferred ∧
          u.feeds[g].deferral = s.feeds[g].preArm ∧ u.feeds[g].preArm = none ∧ u.feeds[g].deferralUsed = true
        (v.state = .deferred ∨ v.state = .shedWait → near →
          x.deferral = none ∧ predicted f ∧ (v.state = .deferred → v.request = true → .feedNews f .shedAgain ∈ u.work) ∧
          ∀ g : Fin 12, s.cfg.feeds[g].enable = true → s.cfg.feeds[g].chain = c.chain → s.cfg.feeds[g].rank < c.rank →
            s.feeds[g].state = .live ∨ s.feeds[g].state = .warned →
              (s.feeds[g].preArm = none → predicted g ∧ (s.feeds[g].request = true → .feedNews g .shedAgain ∈ u.work)) ∧
              (s.feeds[g].preArm ≠ none → armed g)) ∧
        (v.state = .deferred → ¬near →
          (v.preArm = none → x.deferral = none ∧ x.demand = v.demand ∧ x.state = .warned ∧ x.clear = 0) ∧ (v.preArm ≠ none → armed f)) ∧
        (v.state = .shedWait → ¬near →
          x.deferral = none ∧ x.demand = v.demand ∧ (x.state = .shedWait ∨ x.state = .shedding) ∧ (s.CoilHeld → u.ShedTested f))) ∧
    exec (.preArmExpiry f) s = .next
      ({ s with feeds := s.feeds.set f { s.feeds[f] with preArm := none }, work := [] }.settled [])

/-! ### Orders and completions (chapter 8) -/

/-- The checks of an ORDER in their order (R143, R145, R123): the first that fails gives the reply, and a refused order changes nothing but the port's reply.
Rests on the model's choices of log 33 and 39. -/
def Obligations.OrderChecksInTheirOrder : Prop :=
  ∀ (kind : OrderKind) (p : Port) (tag cls idx urgency : Byte) (seconds : Word16) (picks : Picks) (s : State), s.powered = true →
    let refused := fun (r : Result) =>
      exec (orderCmd kind p tag cls idx urgency seconds picks) s = .next (({ s with work := [] }.updateAttention).reply p 0x10 tag ⟨r, []⟩)
    (6 < cls.toNat ∨ 1 < urgency.toNat → refused .badRequest) ∧
    (cls.toNat ≤ 6 → urgency.toNat ≤ 1 →
      ((kind = .feedDefer ∧ p ≠ .a) ∨ ((kind = .feedShed ∨ kind = .feedRestore) ∧ p = .c) → refused .notPermitted) ∧
      (kind.allowed p = true →
        (classOf cls ≠ some kind.actsOn → refused .badKind) ∧
        (classOf cls = some kind.actsOn →
          (orderTarget kind.actsOn idx = none → refused .noTarget) ∧
          ∀ target, orderTarget kind.actsOn idx = some target →
            (s.targetEnabled target = false → refused .noTarget) ∧
            (s.targetEnabled target = true → target.lockable = true → p ≠ .c → s.inLockout target = true → refused .lockedOut) ∧
            (s.targetEnabled target = true → target.lockable = true → p = .c → s.inLockout target = false → refused .notPermitted) ∧
            (s.targetEnabled target = true → (target.lockable = true → (s.inLockout target = true ↔ p = .c)) →
              (∀ n < 8, n ∈ (s.ordersOf p).used) → refused .noSlot))))

/-- An ORDER of any kind that passes every check (R122, R123, R125, R145): it takes the lowest free slot and the next sequence number, the reply carries
both, and it stands from then in its port's queue or, already completed, in its completion list. R124: behind an ACTIVE entry on its target it stands WAITING
at the end of the queue and no unit changes; with no entry on its target it is ACTIVE at once, whatever orders on other targets the queue holds.
Rests on the model's choices of log 15, 26 and 27. -/
def Obligations.AcceptedOrderIsHeld : Prop :=
  ∀ (kind : OrderKind) (p : Port) (tag cls idx urgency : Byte) (seconds : Word16) (picks : Picks) (s : State) (target : Target) (slot : Nat),
    s.powered = true → s.SeqsRight → kind.allowed p = true → classOf cls = some kind.actsOn → orderTarget kind.actsOn idx = some target →
    urgency.toNat ≤ 1 → s.Accepts p target slot →
      ∃ u t : State, exec (orderCmd kind p tag cls idx urgency seconds picks) s = .next t ∧ t = (u.settled picks).reply p 0x10 tag (s.orderAnswer slot) ∧
        t.nextSeq = s.nextSeq + 1 ∧ t.Holds p s.nextSeq slot tag kind target ∧
        (∃ reply, (t.port p).reply = some reply ∧ reply.result = .accepted ∧ reply.data = (s.orderAnswer slot).data ∧
          reply.free = 8 - ((t.ordersOf p).queue.length + (t.ordersOf p).done.length)) ∧
        (∀ q, q ≠ p → u.ordersOf q = s.ordersOf q) ∧
        (kind ≠ .settle → (∃ x ∈ (s.ordersOf p).queue, x.active = true ∧ x.target = target) →
          u = { s with orders := u.orders, nextSeq := s.nextSeq + 1, work := [] } ∧
          u.ordersOf p = { s.ordersOf p with
            queue := (s.ordersOf p).queue ++ [{ s.firstEntryOf slot tag kind target (decide (urgency = 0)) seconds with active := false }] }) ∧
        ((∀ x ∈ (s.ordersOf p).queue, x.target ≠ target) → ∀ x ∈ (u.ordersOf p).queue, x.seq = s.nextSeq → x.active = true ∧ x.mark = false)

/-- PUMP_START into an empty queue (R127): the port's demand joins the set, of which the Supply Arbiter is told (R53); RUNNING ends it DONE, FAILED
ENDED_SHORT with the failure kind, STARTING sets the granted flag, and on OFF, REST or LOCKED it waits. PUMP_STOP (R128): the port's demand leaves the set,
and a RUNNING pump past its min run that nothing wants any more rests (R56); a set still not empty ends the order DONE with note HELD, an empty one DONE,
unless the pump is STARTING, or RUNNING and not yet to rest: then DONE is fixed and the order waits. Nothing else changes.
Rests on the model's choices of log 26 and 27. -/
def Obligations.PumpOrdersActivate : Prop :=
  ∀ (p : Port) (tag idx urgency : Byte) (seconds : Word16) (picks : Picks) (s : State) (m : Fin 8) (slot : Nat),
    s.powered = true → s.LocksAgree → idx.toNat = m.val → urgency.toNat ≤ 1 → s.Accepts p (.pump m) slot → (s.ordersOf p).queue = [] →
      let done := (s.ordersOf p).done
      let r := s.pumps[m]
      (∃ u : State, exec (.pumpStart p tag 2 idx urgency seconds picks) s = .next ((u.settled picks).reply p 0x10 tag (s.orderAnswer slot)) ∧
        let e := s.firstEntryOf slot tag .pumpStart (.pump m) (decide (urgency = 0)) seconds
        u = { s with
          pumps := s.pumps.set m { r with demand := r.demand.put p true, override := r.override && r.demand.auto }
          orders := u.orders, ports := u.ports, nextSeq := s.nextSeq + 1, work := s.sarTold u m } ∧
        (∀ q, q ≠ p → u.ordersOf q = s.ordersOf q ∧ u.port q = s.port q) ∧
        (r.state = .running → u.ordersOf p = { queue := [], done := done ++ [u.recordOf e .done {}] }) ∧
        (r.state = .failed → u.ordersOf p = { queue := [], done := done ++ [u.recordOf e .endedShort { fault := r.failure }] }) ∧
        (r.state = .starting → u.ordersOf p = { queue := [{ e with granted := true }], done := done }) ∧
        (r.state = .off ∨ r.state = .rest ∨ r.state = .locked → u.ordersOf p = { queue := [e], done := done })) ∧
      ∃ u : State, exec (.pumpStop p tag 2 idx urgency seconds picks) s = .next ((u.settled picks).reply p 0x10 tag (s.orderAnswer slot)) ∧
        let e := s.firstEntryOf slot tag .pumpStop (.pump m) (decide (urgency = 0)) seconds
        let left := r.demand.put p false
        let runsOn := r.state = .starting ∨ (r.state = .running ∧ r.minRunElapsed = false)
        u = { s with
          pumps := u.pumps, drivers := u.drivers, orders := u.orders, ports := u.ports, nextSeq := s.nextSeq + 1, work := u.work } ∧
        s.DemandTaken u m left (r.override && r.demand.auto) u.work ∧
        (∀ q, q ≠ p → u.ordersOf q = s.ordersOf q ∧ u.port q = s.port q) ∧
        (left ≠ {} → u.ordersOf p = { queue := [], done := done ++ [u.recordOf e .done { held := true }] }) ∧
        (left = {} → runsOn → u.ordersOf p = { queue := [{ e with fixedDone := true }], done := done }) ∧
        (left = {} → ¬runsOn → u.ordersOf p = { queue := [], done := done ++ [u.recordOf e .done {}] })

/-- BARRIER_CLOSE into an empty queue (R129): the port's demand joins the closure set, with what that makes of the barrier (R83, R84), and the order ends
at once on a barrier SEALED, in FAULT, or CLOSED_UNSEALED with no seal timer, each with the position; else it waits. Nothing else changes.
Rests on the model's choices of log 21, 26, 27 and 43. -/
def Obligations.BarrierCloseActivates : Prop :=
  ∀ (p : Port) (tag idx urgency : Byte) (seconds : Word16) (picks : Picks) (s : State) (b : Fin 6) (slot : Nat),
    s.powered = true → s.LocksAgree → idx.toNat = b.val → urgency.toNat ≤ 1 → s.Accepts p (.barrier b) slot → (s.ordersOf p).queue = [] →
      ∃ u : State, exec (.barrierClose p tag 3 idx urgency seconds picks) s = .next ((u.settled picks).reply p 0x10 tag (s.orderAnswer slot)) ∧
        let e := s.firstEntryOf slot tag .barrierClose (.barrier b) (decide (urgency = 0)) seconds
        let done := (s.ordersOf p).done
        let v := { s.barriers[b] with closure := s.barriers[b].closure.put p true }
        let r := s.barrierAfter b v
        let ends := fun (o : Ending) (k : Option FaultKind) =>
          u.ordersOf p = { queue := [], done := done ++ [u.recordOf e o { position := some r.position, fault := k }] }
        u = { s with
          barriers := s.barriers.set b r, orders := u.orders, ports := u.ports, nextSeq := s.nextSeq + 1, work := s.barrierTold u b v } ∧
        (∀ q, q ≠ p → u.ordersOf q = s.ordersOf q ∧ u.port q = s.port q) ∧
        (r.state = .sealed → ends .done none) ∧
        (r.state = .fault → ends .endedShort r.failure) ∧
        (r.state = .closedUnsealed → r.sealTimer = none → ends .endedShort (some .sealFail)) ∧
        (r.state ≠ .sealed → r.state ≠ .fault → (r.state = .closedUnsealed → r.sealTimer ≠ none) →
          u.ordersOf p = { queue := [e], done := done })

/-- BARRIER_OPEN into an empty queue (R46, R83, R130): the port's demand leaves the closure set, AUTO leaves it for Ports A and B when the three conditions
of R46 hold by the reopen height in force (R102), the release target becomes OPEN when the acting set is then empty, with what that makes of the barrier
(R84), and the first row of R130 that holds ends the order or lets it wait. Nothing else changes. MODEL'S CHOICE (log 47): only Port C's order lets the
release target of a locked barrier act.
Rests on the model's choices of log 21, 26, 27, 32, 43, 47, 52 and 64. -/
def Obligations.BarrierOpenActivates : Prop :=
  ∀ (p : Port) (tag idx urgency : Byte) (seconds : Word16) (picks : Picks) (s : State) (b : Fin 6) (slot : Nat),
    s.powered = true → idx.toNat = b.val → urgency.toNat ≤ 1 → s.Accepts p (.barrier b) slot → (s.ordersOf p).queue = [] →
      let e := s.firstEntryOf slot tag .barrierOpen (.barrier b) (decide (urgency = 0)) seconds
      let done := (s.ordersOf p).done
      let i := s.cfg.barriers[b].sump
      let was := s.barriers[b]
      let clears := p ≠ .c ∧ (∃ l, s.sumps[i].picture.level = some l ∧ l < s.sumps[i].reopen[b]) ∧ s.sumps[i].state ≠ .flood ∧
        ∀ t : Fin 16, ¬(s.rules[t].state = .fired ∧ s.cfg.rules[t].sump = i ∧ s.cfg.rules[t].action = .closeAll)
      ∀ auto : Bool, (auto = true ↔ was.closure.auto = true ∧ ¬clears) →
      ∃ u : State, exec (.barrierOpen p tag 3 idx urgency seconds picks) s = .next ((u.settled picks).reply p 0x10 tag (s.orderAnswer slot)) ∧
        let w := { was with closure := { was.closure.put p false with auto := auto } }
        let v := if w.Acts then w else { w with release := .openEnd, releaseHeld := was.releaseHeld && p != .c }
        let r := s.barrierAfter b v
        let ends := fun (o : Ending) (d : Detail) =>
          u.ordersOf p = { queue := [], done := done ++ [u.recordOf e o { d with position := some r.position }] }
        let overridden := p ≠ .c ∧ auto = true
        let lost := r.position = none ∧ (r.state = .unhomed ∨ r.state = .locked)
        u = { s with
          barriers := s.barriers.set b r, orders := u.orders, ports := u.ports, nextSeq := s.nextSeq + 1, work := s.barrierTold u b v } ∧
        (∀ q, q ≠ p → u.ordersOf q = s.ordersOf q ∧ u.port q = s.port q) ∧
        (overridden → ends .overridden {}) ∧
        (¬overridden → w.Acts → ends .done { held := true }) ∧
        (¬overridden → ¬w.Acts → r.state = .openEnd → ends .done {}) ∧
        (¬overridden → ¬w.Acts → lost → ends .done { held := true, unhomed := true }) ∧
        (¬overridden → ¬w.Acts → ¬lost → r.state = .fault → ends .endedShort { fault := r.failure }) ∧
        (¬overridden → ¬w.Acts → ¬lost → r.state ≠ .openEnd → r.state ≠ .fault → u.ordersOf p = { queue := [e], done := done })

/-- BARRIER_HOME into an empty queue (R91, R131), by the barrier's state and acting closure set: OVERRIDDEN, DONE, ENDED_SHORT, or the port joins the home set
and the order waits. Nothing else changes.
Rests on the model's choices of log 21, 26, 27, 43 and 63. -/
def Obligations.BarrierHomeActivates : Prop :=
  ∀ (p : Port) (tag idx urgency : Byte) (seconds : Word16) (picks : Picks) (s : State) (b : Fin 6) (slot : Nat),
    s.powered = true → s.LocksAgree → idx.toNat = b.val → urgency.toNat ≤ 1 → s.Accepts p (.barrier b) slot → (s.ordersOf p).queue = [] →
      ∃ u : State, exec (.barrierHome p tag 3 idx urgency seconds picks) s = .next ((u.settled picks).reply p 0x10 tag (s.orderAnswer slot)) ∧
        let e := s.firstEntryOf slot tag .barrierHome (.barrier b) (decide (urgency = 0)) seconds
        let done := (s.ordersOf p).done
        let r := s.barriers[b]
        let ends := fun (o : Ending) (k : Option FaultKind) =>
          u.barriers = s.barriers ∧ u.work = [] ∧
            u.ordersOf p = { queue := [], done := done ++ [u.recordOf e o { position := some r.position, fault := k }] }
        u = { s with barriers := u.barriers, orders := u.orders, ports := u.ports, nextSeq := s.nextSeq + 1, work := u.work } ∧
        (∀ q, q ≠ p → u.ordersOf q = s.ordersOf q ∧ u.port q = s.port q) ∧
        (r.Acts → ends .overridden none) ∧
        (¬r.Acts → r.state = .openEnd → ends .done none) ∧
        (¬r.Acts → r.state = .closedUnsealed ∨ r.state = .sealed ∨ r.state = .closing → ends .overridden none) ∧
        (¬r.Acts → r.state = .fault → ends .endedShort r.failure) ∧
        (¬r.Acts → r.state = .unhomed ∨ r.state = .stopped ∨ r.state = .locked ∨ r.state = .opening ∨ r.state = .homing →
          u.barriers = s.barriers.set b (s.barrierAfter b { r with home := r.home.put p true }) ∧ u.work = s.barrierTold u b { r with home := r.home.put p true } ∧
            u.ordersOf p = { queue := [e], done := done })

/-- FEED_SHED into an empty queue (R109, R132): the feed's items come into force (R120) and the port's demand joins the set; SHED ends it DONE, FAULT
ENDED_SHORT, else it waits; a live feed goes to SHED_WAIT or, when its chain and the coil let it, on to SHEDDING.
Rests on the model's choices of log 26, 27, 40, 48 and 56. -/
def Obligations.FeedShedActivates : Prop :=
  ∀ (p : Port) (tag idx urgency : Byte) (seconds : Word16) (picks : Picks) (s : State) (f : Fin 12) (slot : Nat),
    s.powered = true → s.CoilRight → p ≠ .c → idx.toNat = f.val → urgency.toNat ≤ 1 → s.Accepts p (.feed f) slot → (s.ordersOf p).queue = [] →
      ∃ u : State, exec (.feedShed p tag 4 idx urgency seconds picks) s = .next ((u.settled picks).reply p 0x10 tag (s.orderAnswer slot)) ∧
        let e := s.firstEntryOf slot tag .feedShed (.feed f) (decide (urgency = 0)) seconds
        let done := (s.ordersOf p).done
        let v := s.feeds[f].taking s.cfg.feeds[f]
        let y := { s with feeds := s.feeds.set f v }
        u = { s with
          feeds := u.feeds, coil := u.coil, drivers := u.drivers, orders := u.orders, ports := u.ports, nextSeq := s.nextSeq + 1, work := u.work } ∧
            y.FeedsMove u u.work ∧
        (∀ q, q ≠ p → u.ordersOf q = s.ordersOf q) ∧
        u.feeds[f].demand = v.demand.put p true ∧
        (v.state = .shed ∨ v.state = .restoreWait →
          u.feeds[f].state = .shed ∧ u.feeds[f].request = false ∧ (v.request = true → .feedNews f .shedAgain ∈ u.work) ∧
            u.ordersOf p = { queue := [], done := done ++ [u.recordOf e .done {}] }) ∧
        (v.state = .fault →
          u.feeds[f].state = .fault ∧ u.ordersOf p = { queue := [], done := done ++ [u.recordOf e .endedShort { fault := v.failure }] }) ∧
        (v.state = .live ∨ v.state = .warned ∨ v.state = .deferred ∨ v.state = .shedWait →
          (u.feeds[f].state = .shedWait ∨ u.feeds[f].state = .shedding) ∧ (s.CoilHeld → u.ShedTested f) ∧ u.ordersOf p = { queue := [e], done := done }) ∧
        (v.state = .shedding ∨ v.state = .restoring → u.feeds[f].state = v.state ∧ u.ordersOf p = { queue := [e], done := done })

/-- FEED_RESTORE into an empty queue (R113, R133): the feed's items come into force first (R120). Port A: when the release conditions fail, its demand and
the request go, the latches stay, and the order ends OVERRIDDEN; when they hold, the latches go too and the answer by the state ends it or lets it wait.
Port B: its demand alone goes, and the order ends DONE, with note HELD while the set is not empty. A SHED_WAIT feed whose set is emptied by Port B, or by
Port A with the conditions held, goes toward live (R109); the feeds that stand in SHED_WAIT, SHED or RESTORE_WAIT are tested (R108, R112); any other keeps
its state.
Rests on the model's choices of log 26, 28, 40, 48, 53, 54, 55 and 56. -/
def Obligations.FeedRestoreActivates : Prop :=
  ∀ (p : Port) (tag idx urgency : Byte) (seconds : Word16) (picks : Picks) (s : State) (f : Fin 12) (slot : Nat),
    s.powered = true → s.CoilRight → p ≠ .c → idx.toNat = f.val → urgency.toNat ≤ 1 → s.Accepts p (.feed f) slot → (s.ordersOf p).queue = [] →
      ∃ u : State, exec (.feedRestore p tag 4 idx urgency seconds picks) s = .next ((u.settled picks).reply p 0x10 tag (s.orderAnswer slot)) ∧
        let e := s.firstEntryOf slot tag .feedRestore (.feed f) (decide (urgency = 0)) seconds
        let done := (s.ordersOf p).done
        let v := s.feeds[f].taking s.cfg.feeds[f]
        let y := { s with feeds := s.feeds.set f v }
        let c := s.cfg.feeds[f]
        let ends := fun (o : Ending) (d : Detail) => u.ordersOf p = { queue := [], done := done ++ [u.recordOf e o d] }
        let released := (∃ l, s.sumps[c.sump].picture.level = some l ∧ l + c.band < c.trip) ∧ c.lead + c.margin < y.feedArrival f
        u = { s with
          feeds := u.feeds, coil := u.coil, drivers := u.drivers, orders := u.orders, ports := u.ports, nextSeq := s.nextSeq + 1, work := u.work } ∧
            y.FeedsMove u u.work ∧
        (∀ q, q ≠ p → u.ordersOf q = s.ordersOf q) ∧
        let x := u.feeds[f]
        let without := { v.demand with b := false }
        let shedTested := (x.state = .shedWait ∨ x.state = .shedding) ∧ (s.CoilHeld → u.ShedTested f)
        let restoreTested := s.CoilHeld → u.RestoreTested f v.state
        let stays := v.state ≠ .shed ∧ v.state ≠ .restoreWait ∧ v.state ≠ .shedWait
        (p = .b → x.demand = without ∧ (without = {} → ends .done {}) ∧ (without ≠ {} → ends .done { held := true }) ∧
          (stays → x = { v with demand := without }) ∧ (v.state = .shed ∨ v.state = .restoreWait → restoreTested) ∧
          (v.state = .shedWait → v.demand.b = true → without = {} → y.WentTowardLive u f { v with demand := {} } u.work) ∧
          (v.state = .shedWait → v.demand.b = false ∨ without ≠ {} → x.request = v.request ∧ shedTested)) ∧
        (p = .a → ¬released → x.demand = { v.demand with a := false } ∧ x.request = false ∧ ends .overridden {} ∧
          (stays → x = { v with demand := x.demand, request := false }) ∧
          (v.state = .shed ∨ v.state = .restoreWait → x.state = .shed ∧ ∀ n ∈ u.coil.queue, n.feed ≠ f) ∧ (v.state = .shedWait → shedTested)) ∧
        (p = .a → released →
          x.demand = { b := v.demand.b } ∧
          (v.state = .shed ∨ v.state = .shedding → x.request = true ∧
            (v.demand.b = true → ends .done { held := true }) ∧ (v.demand.b = false → u.ordersOf p = { queue := [e], done := done })) ∧
          (v.state = .restoreWait ∨ v.state = .restoring → u.ordersOf p = { queue := [e], done := done }) ∧
          (v.state = .shed ∨ v.state = .restoreWait → restoreTested) ∧
          (v.state = .shedding → x = { v with demand := x.demand, request := true }) ∧ (v.state = .restoring → x = { v with demand := x.demand }) ∧
          (v.state = .shedWait →
            (v.demand.b = true → x.request = true ∧ shedTested ∧ ends .done { held := true }) ∧
            (v.demand.b = false → y.WentTowardLive u f { v with demand := {}, request := false } u.work ∧ ends .done {})) ∧
          (v.state = .live ∨ v.state = .warned ∨ v.state = .deferred → x = { v with demand := x.demand } ∧ ends .done {}) ∧
          (v.state = .fault → x = { v with demand := x.demand, request := true } ∧ ends .endedShort { fault := v.failure }))

/-- FEED_DEFER into Port A's empty queue (R114, R132): the feed's items come into force (R120), and the first row of the table that holds, with the seconds
clamped to 1..max deferral; every outcome ends the order at once.
Rests on the model's choices of log 26, 40 and 56. -/
def Obligations.FeedDeferActivates : Prop :=
  ∀ (tag idx urgency : Byte) (seconds : Word16) (picks : Picks) (s : State) (f : Fin 12) (slot : Nat),
    s.powered = true → s.CoilRight → idx.toNat = f.val → urgency.toNat ≤ 1 → s.Accepts .a (.feed f) slot → (s.ordersOf .a).queue = [] →
      ∃ u : State, exec (.feedDefer .a tag 4 idx urgency seconds picks) s = .next ((u.settled picks).reply .a 0x10 tag (s.orderAnswer slot)) ∧
        let e := s.firstEntryOf slot tag .feedDefer (.feed f) (decide (urgency = 0)) seconds
        let v := s.feeds[f].taking s.cfg.feeds[f]
        let y := { s with feeds := s.feeds.set f v }
        let c := s.cfg.feeds[f]
        let n := if seconds.toNat < 1 then 1 else if c.maxDeferral < seconds.toNat then c.maxDeferral else seconds.toNat
        let ends := fun (o : Ending) (d : Detail) => u.ordersOf .a = { queue := [], done := (s.ordersOf .a).done ++ [u.recordOf e o d] }
        let late := v.state = .shedding ∨ v.state = .shed ∨ v.state = .restoreWait ∨ v.state = .restoring ∨ v.demand.hard = true
        let never := c.deferrable = false ∨ c.maxDeferral = 0 ∨ v.state = .fault ∨ v.state = .deferred ∨ (v.episode = true ∧ v.deferralUsed = true)
        u = { s with
          feeds := u.feeds, coil := u.coil, drivers := u.drivers, orders := u.orders, ports := u.ports, nextSeq := s.nextSeq + 1, work := u.work } ∧
            y.FeedsMove u u.work ∧
        (∀ q, q ≠ .a → u.ordersOf q = s.ordersOf q) ∧
        (late → u.feeds = y.feeds ∧ ends .tooLate {}) ∧
        (¬late → never → u.feeds = y.feeds ∧ ends .overridden {}) ∧
        (¬late → ¬never →
          (v.state = .warned → u.feeds[f].state = .deferred ∧ u.feeds[f].deferral = some n ∧ u.feeds[f].deferralUsed = true ∧
            u.feeds[f].demand = v.demand ∧ ends .done { seconds := some n }) ∧
          (v.state = .shedWait → v.demand.predict = true →
            u.feeds[f].deferralUsed = true ∧ u.feeds[f].demand = { v.demand with predict := false } ∧ ends .done { seconds := some n } ∧
            (u.feeds[f].demand = {} → u.feeds[f].state = .deferred ∧ u.feeds[f].deferral = some n) ∧
            (u.feeds[f].demand ≠ {} → s.CoilHeld → u.ShedTested f ∧ u.feeds[f].deferral = some n)) ∧
          (v.state = .shedWait → v.demand.predict = false → u.feeds = y.feeds ∧ ends .overridden {}) ∧
          (v.state = .live → u.feeds[f] = { v with preArm := some n } ∧ ends .done { seconds := some n, held := true }))

/-- SETTLE (R134): it is ACTIVE at once with the sequence numbers of the port's queue as its settle set; with an empty queue it ends DONE at once. In a queue
whose SETTLEs hold exactly the entries before them, an order of another kind that ends leaves every settle set; the SETTLEs whose sets that empties complete
DONE in the same moment, after it and in acceptance order, and no other does. So for every WAITING order on a target that a WITHDRAW ends (R136), behind an
ACTIVE one too: where the oldest entry of the queue is an ACTIVE order, as R124 and R134 leave every queue, it empties no set. So for the ACTIVE order on a
target that an ABORT (R137) or its notice (R126 to R133) ends, whether it is alone on its target or others wait there. Then the oldest of those that wait
becomes ACTIVE (R124) with the effect of its kind: it stays in its place, or it ends too, with the SETTLEs that this empties, and the next has its turn.
Rests on the model's choices of log 21, 26, 27, 30, 31, 33, 36, 40, 43, 48 and 56. -/
def Obligations.SettleTakesTheQueue : Prop :=
  (∀ (p : Port) (tag urgency : Byte) (seconds : Word16) (picks : Picks) (s : State) (slot : Nat),
    s.powered = true → urgency.toNat ≤ 1 → s.FreeSlot p slot → (∀ e ∈ (s.ordersOf p).queue, e.kind = .settle → e.settle ≠ []) →
      ∃ u : State, exec (.settle p tag 6 0 urgency seconds picks) s = .next ((u.settled picks).reply p 0x10 tag (s.orderAnswer slot)) ∧
        let e := s.firstEntryOf slot tag .settle .port (decide (urgency = 0)) seconds
        u = { s with orders := u.orders, ports := u.ports, nextSeq := s.nextSeq + 1, work := [] } ∧
        (∀ q, q ≠ p → u.ordersOf q = s.ordersOf q ∧ u.port q = s.port q) ∧
        ((s.ordersOf p).queue = [] → u.ordersOf p = { queue := [], done := (s.ordersOf p).done ++ [u.recordOf e .done {}] }) ∧
        ((s.ordersOf p).queue ≠ [] → u.ordersOf p =
          { queue := (s.ordersOf p).queue ++ [{ e with settle := (s.ordersOf p).queue.map (·.seq) }], done := (s.ordersOf p).done })) ∧
  ∀ (s : State) (p : Port), (s.ordersOf p).QueueRight →
    let q := (s.ordersOf p).queue
    (∀ (tag cls idx : Byte) (c : UnitClass) (target : Target), s.powered = true → classOf cls = some c → orderTarget c idx = some target →
      target ≠ .port →
        let gone := q.filter fun e => !e.active && e.target == target
        ∃ u : State, exec (.withdraw p tag cls idx) s = .next ((u.settled []).reply p 0x11 tag ⟨.accepted, [byte gone.length]⟩) ∧
          ({ s with work := [] } : State).OnlyEnds u p gone .withdrawn {} ∧
          ((∀ x ∈ q.head?, x.active = true ∧ x.kind ≠ .settle) → u.ordersOf p =
            { queue := (q.filter fun e => e.active || e.target != target).map fun (x : Entry) =>
                { x with settle := x.settle.filter fun n => !(gone.map (·.seq)).contains n }
              done := (s.ordersOf p).done ++ gone.map fun e => s.completionOf e .withdrawn {} })) ∧
    (∀ e : Entry, (q.find? fun x => x.active && x.target == e.target) = some e → e.target ≠ .port →
      let ended := fun (t : State) (o : Ending) (d : Detail) =>
        t.ordersOf p = s.ordersOnce p [e] o d ∧ ∀ x ∈ endedInTurn [e] q, t.latched p .orderDone x.slot = decide (x.slot < 16)
      let ends := fun (t : State) (o : Ending) (d : Detail) =>
        ((∀ x ∈ q, x.target = e.target → x = e) → ended t o d) ∧
        ((∀ g, g ≠ p → ∀ x ∈ (s.ordersOf g).queue, x.target ≠ e.target) →
          ∃ x : State, s.OnlyEnds x p [e] o d ∧ t = x.handle (.activate p e.target))
      let short := fun (t : State) (k : FaultKind) => ends t .endedShort { fault := some k }
      (∀ (tag cls idx : Byte) (picks : Picks) (c : UnitClass), s.powered = true → classOf cls = some c → orderTarget c idx = some e.target →
        ∃ u : State, exec (.abort p tag cls idx picks) s = .next ((u.settled picks).reply p 0x12 tag ⟨.accepted, []⟩) ∧
          ended u .aborted {} ∧ (∀ g, g ≠ p → u.ordersOf g = s.ordersOf g) ∧ ∃ new, u.work = new ++ [.activate p e.target]) ∧
      (∀ m, e.target = .pump m →
        let on := fun (n : PumpNews) => s.handle (.pumpNews m n)
        (e.kind = .pumpStart → ends (on .running) .done {} ∧ (∀ k, short (on (.failed k)) k) ∧ (p ≠ .c → ends (on .locked) .disturbed {})) ∧
        (e.kind = .pumpStop → e.fixedDone = true →
          ends (on .leftRunning) .done {} ∧ (∀ k, ends (on (.failed k)) .done {}) ∧ ends (on .locked) .done {})) ∧
      (∀ b, e.target = .barrier b →
        let on := fun (n : BarrierNews) => s.handle (.barrierNews b n)
        (e.kind.onBarrier = true → (∀ k, short (on (.faulted k)) k) ∧ (p ≠ .c → ends (on .locked) .disturbed {})) ∧
        (e.kind = .barrierClose → ends (on .sealed) .done {} ∧ short (on .sealFailed) .sealFail) ∧
        (e.kind = .barrierOpen ∨ e.kind = .barrierHome → ends (on .reachedOpen) .done {} ∧ ends (on .homingDisturbed) .disturbed {}) ∧
        (e.kind = .barrierOpen → ends (on .turned) .disturbed {} ∧ ends (on .halted) .disturbed {} ∧ ends (on .wantLost) .disturbed {})) ∧
      ∀ f, e.target = .feed f →
        let on := fun (n : FeedNews) => s.handle (.feedNews f n)
        (e.kind = .feedShed → ends (on .reachedShed) .done {} ∧ ∀ k, short (on (.failed k)) k) ∧
        (e.kind = .feedRestore → ends (on .reachedLive) .done {} ∧ (∀ k, short (on (.failed k)) k) ∧ ends (on .shedAgain) .disturbed {})) ∧
    ∀ w : Entry, q.length ≤ 8 → (q.find? fun x => x.target == w.target) = some w → (∀ x ∈ q, x.target = w.target → x.active = false) →
      w.target ≠ .port →
        let t := s.handle (.activate p w.target)
        let live := { w with active := true, mark := false }
        let stays := fun (y : State) (v : Entry) =>
          t = { y with orders := t.orders } ∧ (∀ g, g ≠ p → t.ordersOf g = s.ordersOf g) ∧
            t.ordersOf p = { s.ordersOf p with queue := q.map fun x => if x.seq = w.seq then v else x }
        let ends := fun (y : State) (o : Ending) (d : Detail) => ∃ z : State, y.OnlyEnds z p [w] o d ∧ t = z.handle (.activate p w.target)
        ∃ (y : State) (new : List Notice), y.orders = s.orders ∧ y.work = s.work ++ new ∧
          (stays y live ∨ stays y { live with granted := true } ∨ stays y { live with fixedDone := true } ∨ ∃ o d, ends y o d) ∧
          (∀ m, w.target = .pump m →
            let r := y.pumps[m]
            let startable := s.cfg.pumps[m].enable = true ∧ (s.pumps[m].locked = false ∨ p = .c)
            let taken := fun (on : Bool) => y = { s with pumps := y.pumps, drivers := y.drivers, work := y.work } ∧
              s.DemandTaken y m (s.pumps[m].demand.put p on) (s.pumps[m].override && s.pumps[m].demand.auto) new
            (w.kind = .pumpStop → taken false ∧
              (r.demand ≠ {} → ends y .done { held := true }) ∧
              (r.demand = {} → (r.state = .starting ∨ r.state = .running → stays y { live with fixedDone := true }) ∧
                (r.state ≠ .starting → r.state ≠ .running → ends y .done {}))) ∧
            (w.kind = .pumpStart → startable → taken true ∧
              (r.state = .running → ends y .done {}) ∧ (r.state = .failed → ends y .endedShort { fault := r.failure }) ∧
              (r.state = .starting → stays y { live with granted := true }) ∧
              (r.state = .off ∨ r.state = .rest ∨ r.state = .locked → stays y live)) ∧
            (w.kind = .pumpStart → ¬startable → y = s ∧ ends y .disturbed {})) ∧
          (∀ b, w.target = .barrier b →
            let v := { s.barriers[b] with closure := s.barriers[b].closure.put p true }
            let r := s.barrierAfter b v
            let barred := s.barriers[b].locked = true ∧ p ≠ .c
            (w.kind = .barrierClose ∨ w.kind = .barrierHome → barred → y = s ∧ ends y .disturbed {}) ∧
            (w.kind = .barrierClose → ¬barred →
              y = { s with barriers := s.barriers.set b r, work := y.work } ∧ new = s.barrierTold y b v ∧
              (r.state = .sealed → ends y .done {}) ∧ (r.state = .fault → ends y .endedShort { fault := r.failure }) ∧
              (r.state = .closedUnsealed → r.sealTimer = none → ends y .endedShort { fault := some .sealFail }) ∧
              (r.state ≠ .sealed → r.state ≠ .fault → (r.state = .closedUnsealed → r.sealTimer ≠ none) → stays y live))) ∧
          ∀ f, w.target = .feed f →
            let v := s.feeds[f].taking s.cfg.feeds[f]
            let x := { s with feeds := s.feeds.set f v }
            let late := v.state = .shedding ∨ v.state = .shed ∨ v.state = .restoreWait ∨ v.state = .restoring ∨ v.demand.hard = true
            (w.kind = .feedShed → s.CoilRight →
              y = { s with feeds := y.feeds, coil := y.coil, drivers := y.drivers, ports := y.ports, work := y.work } ∧ x.FeedsMove y new ∧
              y.feeds[f].demand = v.demand.put p true ∧
              (v.state = .shed ∨ v.state = .restoreWait → y.feeds[f].state = .shed ∧ ends y .done {}) ∧
              (v.state = .fault → y.feeds[f].state = .fault ∧ ends y .endedShort { fault := v.failure }) ∧
              (v.state ≠ .shed → v.state ≠ .restoreWait → v.state ≠ .fault → stays y live)) ∧
            (w.kind = .feedDefer → late → y = x ∧ ends y .tooLate {})

/-- AGE_TIMER_EXPIRY (R135), on every port at once. Every marked entry that is WAITING, or an ACTIVE PUMP_START not granted, goes STALE in acceptance order, the
PUMP_START removing its port's demand first; every other such entry is marked; an ACTIVE order of another kind, or a granted one, does not age; the timer
restarts with the interval as it stands. The first part takes queues, empty ones too, without SETTLEs, in which no order waits behind an ACTIVE one that goes
STALE; the second the order behind one: it becomes ACTIVE with its mark cleared, is not marked at this expiry, and has its effect on the pump without the
stale demand; while it stays ACTIVE, those behind it go STALE or are marked.
Rests on the model's choices of log 8, 27, 29, 36 and 43. -/
def Obligations.AgeExpiryMarksAndEndsStaleOrders : Prop :=
  (∀ (s : State) (picks : Picks), s.powered = true →
    let ages := fun (e : Entry) => !e.active || (e.kind == .pumpStart && !e.granted)
    let stale := fun (e : Entry) => e.mark && ages e
    (∀ p, ((s.ordersOf p).queue.map (·.seq)).Nodup ∧ ∀ e ∈ (s.ordersOf p).queue, e.kind ≠ .settle ∧ e.settle = [] ∧
      (∃ x ∈ (s.ordersOf p).queue, x.active = true ∧ x.target = e.target) ∧
      (e.active = true → ∀ x ∈ (s.ordersOf p).queue, x.active = true ∨ stale e = true → x.target = e.target → x = e)) →
      ∃ u : State, exec (.ageTimerExpiry picks) s = .next (u.settled picks) ∧
        let gone := fun (k : Nat) (m : Fin 8) (p : Port) =>
          decide (p.idx < k) && (s.ordersOf p).queue.any fun e => stale e && e.active && e.target == .pump m
        let pumpAt := fun (k : Nat) (m : Fin 8) =>
          let v := s.pumps[m]
          let any := gone k m .a || gone k m .b || gone k m .c
          let d : DemandSet := { v.demand with
            a := v.demand.a && !gone k m .a, b := v.demand.b && !gone k m .b, c := v.demand.c && !gone k m .c }
          let r : Pump := { v with demand := d, override := if any then v.override && v.demand.auto else v.override }
          if any = true ∧ r.state = .running ∧ r.minRunElapsed = true ∧ ¬r.Wanted then
            { r with state := .rest, minRun := none, noFlow := none, minOff := some (s.cfg.pumps[m].minOff * 1000) }
          else r
        let told := fun (p : Port) (m : Fin 8) =>
          if (pumpAt p.idx m).state ≠ (pumpAt (p.idx + 1) m).state then [.sarFreed m, .pumpLeft m s.cfg.pumps[m].sump, .pumpNews m .leftRunning]
          else ({ s with pumps := s.pumps.set m (pumpAt p.idx m) } : State).sarTold { s with pumps := s.pumps.set m (pumpAt (p.idx + 1) m) } m
        u = { s with
          pumps := u.pumps, drivers := u.drivers, orders := u.orders, ports := u.ports, ageLeft := s.cfg.ageInterval * 1000
          work := [Port.a, Port.b, Port.c].flatMap fun p => (s.ordersOf p).queue.flatMap fun e =>
            match e.active && stale e, e.target with
            | true, .pump m => told p m
            | _, _ => [] } ∧
        (∀ p, u.ordersOf p =
          { queue := ((s.ordersOf p).queue.filter fun e => !stale e).map fun (e : Entry) => { e with mark := e.mark || ages e }
            done := (s.ordersOf p).done ++ ((s.ordersOf p).queue.filter stale).map fun e => s.completionOf e .stale {} }) ∧
        (∀ p, u.port p = { s.port p with latches := (u.port p).latches } ∧ ∀ k i,
          u.latched p k i = (s.latched p k i || decide (k = .orderDone ∧ i < 16 ∧ ∃ e ∈ (s.ordersOf p).queue, stale e = true ∧ e.slot = i))) ∧
        (∀ m : Fin 8, u.pumps[m] = pumpAt 3 m ∧ u.drivers[runD m] =
          if (pumpAt 3 m).state = s.pumps[m].state then s.drivers[runD m] else { s.drivers[runD m] with commanded := false, energised := false }) ∧
        ∀ d : Fin 44, 8 ≤ d.val → u.drivers[d] = s.drivers[d]) ∧
  ∀ (s : State) (p : Port) (m : Fin 8) (e w : Entry) (more : List Entry) (picks : Picks), s.powered = true →
    (s.ordersOf p).queue = e :: w :: more → (∀ q, q ≠ p → (s.ordersOf q).queue = []) → ((e :: w :: more).map (·.seq)).Nodup →
    e.active = true → e.kind = .pumpStart → e.granted = false → e.mark = true →
    (∀ v ∈ e :: w :: more, v.target = .pump m ∧ v.settle = []) → (∀ v ∈ w :: more, v.active = false ∧ (v.kind = .pumpStart ∨ v.kind = .pumpStop)) →
      ∃ u x y : State, ∃ first last : List Notice, exec (.ageTimerExpiry picks) s = .next (u.settled picks) ∧
        x = { s with pumps := x.pumps, drivers := x.drivers } ∧ y = { s with pumps := y.pumps, drivers := y.drivers } ∧
        s.DemandTaken x m (s.pumps[m].demand.put p false) (s.pumps[m].override && s.pumps[m].demand.auto) first ∧
        let live := { w with active := true, mark := false }
        let r := y.pumps[m]
        let ended := (s.ordersOf p).done ++ [s.recordOf e .stale {}]
        let becomes := fun (queue : List Entry) (done : List Completion) =>
          u = { y with orders := u.orders, ports := u.ports, ageLeft := s.cfg.ageInterval * 1000, work := first ++ last } ∧
          (∀ q, q ≠ p → u.ordersOf q = s.ordersOf q ∧ u.port q = s.port q) ∧ u.ordersOf p = { queue := queue, done := ended ++ done }
        let stays := fun (v : Entry) => becomes
          (v :: (more.filter fun n => !n.mark).map fun (n : Entry) => { n with mark := true })
          ((more.filter (·.mark)).map fun n => s.completionOf n .stale {})
        let ends := fun (o : Ending) (d : Detail) => more = [] → becomes [] [s.recordOf w o d]
        let startable := s.cfg.pumps[m].enable = true ∧ (s.pumps[m].locked = false ∨ p = .c)
        (w.kind = .pumpStop →
          x.DemandTaken y m (x.pumps[m].demand.put p false) (x.pumps[m].override && x.pumps[m].demand.auto) last ∧
          (r.demand ≠ {} → ends .done { held := true }) ∧
          (r.demand = {} → (r.state = .starting ∨ r.state = .running → stays { live with fixedDone := true }) ∧
            (r.state ≠ .starting → r.state ≠ .running → ends .done {}))) ∧
        (w.kind = .pumpStart → startable →
          x.DemandTaken y m (x.pumps[m].demand.put p true) (x.pumps[m].override && x.pumps[m].demand.auto) last ∧
          (r.state = .running → ends .done {}) ∧ (r.state = .failed → ends .endedShort { fault := r.failure }) ∧
          (r.state = .starting → stays { live with granted := true }) ∧
          (r.state = .off ∨ r.state = .rest ∨ r.state = .locked → stays live)) ∧
        (w.kind = .pumpStart → ¬startable → y = x ∧ last = [] ∧ ends .disturbed {})

/-- WITHDRAW and ABORT (R136, R137, R145): the refusals in their order, each changing nothing but the reply. WITHDRAW ends the port's WAITING entries for the
target WITHDRAWN, oldest first, with their number in the reply; naming PORT it withdraws nothing. ABORT ends the ACTIVE entry ABORTED and undoes its hold by
its kind, or answers NOTHING_ACTIVE; naming PORT it ends every SETTLE of the port ABORTED, in acceptance order. What ends leaves the settle sets, and the
SETTLEs that this empties complete DONE (R134). The ABORT of a FEED_SHED takes the port's demand from the set, and Port A's the restore request too: a
SHED_WAIT feed whose set it empties goes toward live (R109), one whose set still holds a demand is tested for its place in the coil queue (R108), a SHED or
RESTORE_WAIT feed for its restore (R112), and any other keeps its state; Port A's FEED_RESTORE loses its request with the same tests (R113). The other ports'
queues stand. Rests on the model's choices of log 21, 26, 28, 30, 31, 33, 39, 40, 43, 48, 53, 55 and 56. -/
def Obligations.WithdrawAndAbortEndOrders : Prop :=
  ∀ (s : State) (p : Port) (tag cls idx : Byte) (picks : Picks), s.powered = true →
    let noWithdraw := fun (r : Result) => exec (.withdraw p tag cls idx) s = .next (({ s with work := [] }.updateAttention).reply p 0x11 tag ⟨r, []⟩)
    let noAbort := fun (r : Result) => exec (.abort p tag cls idx picks) s = .next (({ s with work := [] }.updateAttention).reply p 0x12 tag ⟨r, []⟩)
    let q := (s.ordersOf p).queue
    let done := (s.ordersOf p).done
    (6 < cls.toNat → noWithdraw .badRequest ∧ noAbort .badRequest) ∧
    (∀ c, classOf cls = some c →
      (c = .sump ∨ c = .probe ∨ c = .rule → noWithdraw .badKind ∧ noAbort .badKind) ∧
      (c = .pump ∨ c = .barrier ∨ c = .feed ∨ c = .port → orderTarget c idx = none → noWithdraw .noTarget ∧ noAbort .noTarget) ∧
      ∀ target, orderTarget c idx = some target →
        let gone := q.filter fun e => !e.active && e.target == target
        (target = .port → (∀ e ∈ q, e.target = .port → e.active = true) →
          exec (.withdraw p tag cls idx) s = .next (({ s with work := [] }.updateAttention).reply p 0x11 tag ⟨.accepted, [0]⟩)) ∧
        ((∀ e ∈ q, e.active = true → e.target ≠ target) → noAbort .nothingActive) ∧
        ((q.map (·.seq)).Nodup →
          (target = .port → (∀ e ∈ q, (e.kind = .settle ↔ e.target = .port) ∧ (e.kind = .settle → e.active = true)) → (∃ e ∈ q, e.kind = .settle) →
            ∃ u : State, exec (.abort p tag cls idx picks) s = .next ((u.settled picks).reply p 0x12 tag ⟨.accepted, []⟩) ∧
              let settles := q.filter fun e => e.kind == .settle
              u = { s with orders := u.orders, ports := u.ports, work := [] } ∧ (∀ g, g ≠ p → u.ordersOf g = s.ordersOf g ∧ u.port g = s.port g) ∧
              u.ordersOf p =
                { queue := (q.filter fun e => e.kind != .settle).map fun (e : Entry) =>
                    { e with settle := e.settle.filter fun n => !(settles.map (·.seq)).contains n }
                  done := done ++ settles.map fun e => s.completionOf e .aborted {} } ∧
              ∀ e ∈ settles, u.latched p .orderDone e.slot = decide (e.slot < 16)) ∧
          ((s.ordersOf p).QueueRight →
            ((∀ e ∈ gone, e.kind ≠ .settle) →
              ∃ u : State, exec (.withdraw p tag cls idx) s = .next ((u.settled []).reply p 0x11 tag ⟨.accepted, [byte gone.length]⟩) ∧
                ({ s with work := [] } : State).OnlyEnds u p gone .withdrawn {}) ∧
            ∀ e, (q.find? fun x => x.active && x.target == target) = some e → target ≠ .port →
              ∃ u : State, exec (.abort p tag cls idx picks) s = .next ((u.settled picks).reply p 0x12 tag ⟨.accepted, []⟩) ∧
                u.ordersOf p = s.ordersOnce p [e] .aborted {} ∧
                (∀ x ∈ endedInTurn [e] q, u.latched p .orderDone x.slot = decide (x.slot < 16)) ∧
                (∀ g, g ≠ p → u.ordersOf g = s.ordersOf g) ∧
                u = { s with
                  pumps := u.pumps, barriers := u.barriers, feeds := u.feeds, coil := u.coil, drivers := u.drivers, orders := u.orders
                  ports := u.ports, work := u.work } ∧
                ∃ new, u.work = new ++ [.activate p target] ∧
                (∀ m, target = .pump m → u.barriers = s.barriers ∧ u.feeds = s.feeds ∧ u.coil = s.coil ∧
                  (e.kind = .pumpStart →
                    s.DemandTaken u m (s.pumps[m].demand.put p false) (s.pumps[m].override && s.pumps[m].demand.auto) new) ∧
                  (e.kind = .pumpStop → u.pumps = s.pumps ∧ u.drivers = s.drivers ∧ new = [])) ∧
                (∀ b, target = .barrier b → u.pumps = s.pumps ∧ u.feeds = s.feeds ∧ u.coil = s.coil ∧ u.drivers = s.drivers ∧
                  let r := s.barriers[b]
                  let v : Barrier :=
                    { r with
                      closure := if e.kind = .barrierClose then r.closure.put p false else r.closure
                      home := if e.kind = .barrierHome then r.home.put p false else r.home, release := .halt }
                  (e.kind = .barrierClose ∨ e.kind = .barrierOpen ∨ e.kind = .barrierHome →
                    u.barriers = s.barriers.set b (s.barrierAfter b v) ∧ new = s.barrierTold u b v)) ∧
                ∀ f, target = .feed f → u.pumps = s.pumps ∧ u.barriers = s.barriers ∧
                  (e.kind = .feedShed ∨ (e.kind = .feedRestore ∧ p = .a) → s.FeedsMove u new ∧
                    let v : Feed := { s.feeds[f] with request := s.feeds[f].request && p != .a }
                    let without := if e.kind = .feedShed then v.demand.put p false else v.demand
                    let x := u.feeds[f]
                    x.demand = without ∧ (p = .a → x.request = false) ∧
                    (s.CoilRight →
                      (v.state = .shedWait → v.demand ≠ without → without = {} → s.WentTowardLive u f { v with demand := {} } new) ∧
                      (v.state = .shedWait → v.demand = without ∨ without ≠ {} →
                        x.request = v.request ∧ (x.state = .shedWait ∨ x.state = .shedding) ∧ (s.CoilHeld → u.ShedTested f)) ∧
                      (v.state = .shed ∨ v.state = .restoreWait →
                        (x.state = .shed ∨ x.state = .restoreWait ∨ x.state = .restoring) ∧ (s.CoilHeld → u.RestoreTested f v.state) ∧
                        (p = .a → x.state = .shed ∧ ∀ n ∈ u.coil.queue, n.feed ≠ f)) ∧
                      (v.state ≠ .shedWait → v.state ≠ .shed → v.state ≠ .restoreWait → x = { v with demand := without }))) ∧
                  (e.kind = .feedDefer ∨ (e.kind = .feedRestore ∧ p ≠ .a) → u.feeds = s.feeds ∧ u.coil = s.coil ∧ new = []))))

/-- What a notice makes of the ACTIVE order on its target, in each port's queue, by the order's kind (R126 to R133): the granted flag, an outcome with its
record, or nothing. unlocked ends every order of Port C on the unit DISTURBED and disabled every order of every port, WAITING or ACTIVE and however many,
in acceptance order, each with its record and its ORDER_DONE (R125), and with the SETTLEs that this empties (R134). Then the oldest WAITING order on the target becomes ACTIVE (R124):
after an end by RUNNING a PUMP_STOP removes its demand; a PUMP_START, BARRIER_CLOSE or BARRIER_HOME of Port A or B that activates after a lockout has no
effect and ends DISTURBED (section 8.3), and so does a PUMP_START behind a PUMP_STOP that the disable of its pump ends DONE, the emptied set staying as it
is (R69); a FEED_DEFER behind a shed ends TOO_LATE; and an order freed by an ABORT is applied.
Rests on the model's choices of log 27, 36, 43 and 56. -/
def Obligations.NoticesEndOrdersAndActivateTheNext : Prop :=
  (∀ (s : State) (p : Port) (e : Entry) (rest : List Entry), (s.ordersOf p).queue = e :: rest → e.active = true → e.kind ≠ .settle →
    (∀ w ∈ rest, w.target ≠ e.target ∧ w.kind ≠ .settle ∧ w.settle = [] ∧ w.seq ≠ e.seq) →
    let stays := fun (t : State) => t.ordersOf p = s.ordersOf p
    let ends := fun (t : State) (o : Ending) (d : Detail) =>
      t.ordersOf p = { queue := rest, done := (s.ordersOf p).done ++ [s.completionOf e o d] } ∧ (e.slot < 8 → t.latched p .orderDone e.slot = true)
    let short := fun (t : State) (k : FaultKind) => ends t .endedShort { fault := some k }
    let locked := fun (t : State) => (p ≠ .c → ends t .disturbed {}) ∧ (p = .c → stays t)
    let unlocked := fun (t : State) => (p = .c → ends t .disturbed {}) ∧ (p ≠ .c → stays t)
    (∀ m, e.target = .pump m →
      let on := fun (n : PumpNews) => s.handle (.pumpNews m n)
      unlocked (on .unlocked) ∧ ends (on .disabled) .disturbed {} ∧
      (e.kind = .pumpStart →
        (on .granted).ordersOf p = { queue := { e with granted := true } :: rest, done := (s.ordersOf p).done } ∧
        ends (on .running) .done {} ∧ (∀ k, short (on (.failed k)) k) ∧ locked (on .locked) ∧ stays (on .leftRunning)) ∧
      (e.kind = .pumpStop → stays (on .granted) ∧ stays (on .running) ∧
        (e.fixedDone = true → ends (on .leftRunning) .done {} ∧ (∀ k, ends (on (.failed k)) .done {}) ∧ ends (on .locked) .done {}))) ∧
    (∀ b, e.target = .barrier b →
      let on := fun (n : BarrierNews) => s.handle (.barrierNews b n)
      unlocked (on .unlocked) ∧ ends (on .disabled) .disturbed {} ∧
      (e.kind = .barrierClose ∨ e.kind = .barrierOpen ∨ e.kind = .barrierHome →
        (∀ k, short (on (.faulted k)) k) ∧ locked (on .locked) ∧ stays (on .closedUnsealed)) ∧
      (e.kind = .barrierClose → ends (on .sealed) .done {} ∧ short (on .sealFailed) .sealFail ∧ stays (on .reachedOpen) ∧ stays (on .homingDisturbed) ∧
        stays (on .turned) ∧ stays (on .halted) ∧ stays (on .wantLost)) ∧
      (e.kind = .barrierOpen ∨ e.kind = .barrierHome → ends (on .reachedOpen) .done {} ∧ ends (on .homingDisturbed) .disturbed {} ∧
        stays (on .sealed) ∧ stays (on .sealFailed)) ∧
      (e.kind = .barrierOpen → ends (on .turned) .disturbed {} ∧ ends (on .halted) .disturbed {} ∧ ends (on .wantLost) .disturbed {}) ∧
      (e.kind = .barrierHome → stays (on .turned) ∧ stays (on .halted) ∧ stays (on .wantLost))) ∧
    ∀ f, e.target = .feed f →
      let on := fun (n : FeedNews) => s.handle (.feedNews f n)
      ends (on .disabled) .disturbed {} ∧
      (e.kind = .feedShed → ends (on .reachedShed) .done {} ∧ (∀ k, short (on (.failed k)) k) ∧ stays (on .reachedLive) ∧ stays (on .shedAgain)) ∧
      (e.kind = .feedRestore → ends (on .reachedLive) .done {} ∧ (∀ k, short (on (.failed k)) k) ∧ ends (on .shedAgain) .disturbed {} ∧
        stays (on .reachedShed))) ∧
  (∀ (s : State) (p : Port) (e w : Entry), (s.ordersOf p).queue = [e, w] → (∀ q, q ≠ p → (s.ordersOf q).queue = []) → e.active = true →
    w.active = false → w.target = e.target → w.kind ≠ .settle → w.settle = [] → e.kind ≠ .settle → w.seq ≠ e.seq →
    let done := (s.ordersOf p).done
    let both := fun (t : State) (o : Ending) (x : Ending) (d : Detail) =>
      t.ordersOf p = { queue := [], done := done ++ [s.completionOf e o {}, s.completionOf w x d] }
    (∀ m, e.target = .pump m →
      (e.kind = .pumpStart → w.kind = .pumpStop →
        let t := s.handle (.pumpNews m .running)
        let r := s.pumps[m]
        let left := r.demand.put p false
        let runsOn := r.state = .starting ∨ (r.state = .running ∧ r.minRunElapsed = false)
        (∃ new, t.work = s.work ++ new ∧ s.DemandTaken t m left (r.override && r.demand.auto) new) ∧
        (left ≠ {} → both t .done .done { held := true }) ∧
        (left = {} → runsOn → t.ordersOf p =
          { queue := [{ w with active := true, mark := false, fixedDone := true }], done := done ++ [s.completionOf e .done {}] }) ∧
        (left = {} → ¬runsOn → both t .done .done {})) ∧
      (e.kind = .pumpStart ∨ (e.kind = .pumpStop ∧ e.fixedDone = true) → w.kind = .pumpStart → p ≠ .c → s.pumps[m].locked = true →
        let t := s.handle (.pumpNews m .locked)
        both t (if e.kind = .pumpStart then .disturbed else .done) .disturbed {} ∧ t.pumps = s.pumps ∧ t.drivers = s.drivers ∧ t.work = s.work) ∧
      (e.kind = .pumpStop → e.fixedDone = true → w.kind = .pumpStart → s.cfg.pumps[m].enable = false →
        let t := s.handle (.pumpNews m .leftRunning)
        both t .done .disturbed {} ∧ t.pumps = s.pumps ∧ t.drivers = s.drivers ∧ t.work = s.work)) ∧
    (∀ b, e.target = .barrier b → e.kind.onBarrier = true → w.kind = .barrierClose ∨ w.kind = .barrierHome → p ≠ .c → s.barriers[b].locked = true →
      let t := s.handle (.barrierNews b .locked)
      both t .disturbed .disturbed {} ∧ t.barriers = s.barriers ∧ t.work = s.work) ∧
    ∀ f, e.target = .feed f → e.kind = .feedShed → w.kind = .feedDefer → s.feeds[f].state = .shed →
      let t := s.handle (.feedNews f .reachedShed)
      both t .done .tooLate {} ∧ t.feeds = s.feeds.set f (s.feeds[f].taking s.cfg.feeds[f]) ∧ t.work = s.work) ∧
  (∀ s : State, (∀ p, (s.ordersOf p).QueueRight) →
    let all := fun (p : Port) (target : Target) => (s.ordersOf p).queue.filter fun e => e.target == target
    let unlocked := fun (target : Target) (t : State) => s.OnlyEnds t .c (all .c target) .disturbed {}
    let disabled := fun (target : Target) (t : State) =>
      t = { s with orders := t.orders, ports := t.ports } ∧ ∀ p, s.PortEnds t p (all p target) .disturbed {}
    (∀ m, unlocked (.pump m) (s.handle (.pumpNews m .unlocked)) ∧ disabled (.pump m) (s.handle (.pumpNews m .disabled))) ∧
    (∀ b, unlocked (.barrier b) (s.handle (.barrierNews b .unlocked)) ∧ disabled (.barrier b) (s.handle (.barrierNews b .disabled))) ∧
    ∀ f, disabled (.feed f) (s.handle (.feedNews f .disabled))) ∧
  ∀ (s : State) (p : Port) (w : Entry) (m : Fin 8), (s.ordersOf p).queue = [w] → w.kind = .pumpStart → w.target = .pump m →
    let t := s.handle (.activate p (.pump m))
    let r := s.pumps[m]
    (w.active = true → t = s) ∧
    (w.active = false → s.cfg.pumps[m].enable = true → r.locked = false ∨ p = .c → r.state = .off ∨ r.state = .rest ∨ r.state = .locked →
      t = { s with
        pumps := s.pumps.set m { r with demand := r.demand.put p true, override := r.override && r.demand.auto }
        orders := t.orders, work := s.work ++ s.sarTold t m } ∧
      t.ordersOf p = { s.ordersOf p with queue := [{ w with active := true, mark := false }] } ∧ ∀ q, q ≠ p → t.ordersOf q = s.ordersOf q)

/-- R138 whole: COLLECT answers ACCEPTED with the oldest record of the port's list and removes it, which frees its slot, or EMPTY when the list is empty; the
latches stay, and the line falls when the list is empty and no unmasked latch is set. -/
def Obligations.CollectTakesTheOldestRecord : Prop :=
  ∀ (s : State) (p : Port) (tag : Byte), s.powered = true →
    ((s.ordersOf p).done = [] → exec (.collect p tag) s = .next (({ s with work := [] }.updateAttention).reply p 0x13 tag ⟨.empty, []⟩)) ∧
    (∀ c rest, (s.ordersOf p).done = c :: rest →
      ∃ t : State, exec (.collect p tag) s = .next t ∧
        t = { s with orders := t.orders, ports := t.ports, work := [] } ∧
        t.ordersOf p = { s.ordersOf p with done := rest } ∧ (∀ q, q ≠ p → t.ordersOf q = s.ordersOf q) ∧
        (∀ q k i, t.latched q k i = s.latched q k i) ∧
        (t.port p).attention = (!rest.isEmpty || (s.port p).unmasked) ∧
        ∃ reply, (t.port p).reply = some reply ∧ reply.result = .accepted ∧ reply.data = c.record ∧
          reply.free = 8 - ((s.ordersOf p).queue.length + rest.length))

/-! ### Frames, receivers and requests (chapter 9) -/

/-- The body that a request is spelled by decodes to that request: no parameter byte is dropped (sections 9.2 and 9.7, R143).
Rests on the model's choices of log 3. -/
def Obligations.RequestBodiesRoundTrip : Prop :=
  ∀ (i : Instr) (body : List Byte), encodeRequest i = some body → decodeRequest (requestPort i) body = some (withoutPicks i)

/-- R140, R141: a frame received byte by byte from IDLE. With the CRC of its length and body it moves the receiver to REPLYING with its body checked, or, when
the body spells no request, answers it BAD_REQUEST; with other CRC bytes it is discarded with LINK CRC on that port alone, and SKIPPING.
Rests on the model's choices of log 26. -/
def Obligations.FrameIsCheckedByItsCrc : Prop :=
  ∀ (s : State) (p : Port) (body : List Byte) (high low : Byte), s.powered = true → (s.port p).rx = .idle → (s.port p).checked = none →
    3 ≤ body.length → body.length ≤ 48 →
      let crc := crc16 (byte body.length :: body)
      let frame := [0xC3, byte body.length] ++ body ++ [high, low]
      ∃ t : State, runAll (bytesOn p frame) s = some t ∧ t = { s with ports := t.ports, work := [] } ∧
        (high = highByte crc → low = lowByte crc →
          (t.port p).rx = .replying ∧ (∀ q k i, t.latched q k i = s.latched q k i) ∧
          (∀ i, decodeRequest p body = some i → (t.port p).checked = some body ∧ (t.port p).reply = none) ∧
          (decodeRequest p body = none →
            ∃ reply, (t.port p).reply = some reply ∧ reply.result = .badRequest ∧ reply.code = body.headD 0 ∧ reply.tag = (body[1]?).getD 0 ∧
              reply.data = [])) ∧
        (¬(high = highByte crc ∧ low = lowByte crc) →
          (t.port p).rx = .skipping ∧ (t.port p).buffer = [] ∧
          ∀ q k i, t.latched q k i = (s.latched q k i || decide (q = p ∧ k = .link ∧ i = 2)))

/-- BYTE_RECEIVED, GAP, SKIPPING_QUIET and BREAK_END (R140 to R142) by the receiver state: what opens a frame, what is discarded and with which cause, and
what is ignored. A byte with a framing error changes nothing.
Rests on the model's choices of log 26. -/
def Obligations.ReceiverMovesByItsState : Prop :=
  ∀ (s : State) (p : Port) (b : Byte), s.powered = true → (s.port p).checked = none →
    exec (.byteReceived p b true) s = .next s ∧
    ∃ x g q k : State, exec (.byteReceived p b false) s = .next x ∧ exec (.gap p) s = .next g ∧ exec (.skippingQuiet p) s = .next q ∧
      exec (.breakEnd p) s = .next k ∧
      x = { s with ports := x.ports, work := [] } ∧ g = { s with ports := g.ports, work := [] } ∧
      q = { s with ports := q.ports, work := [] } ∧ k = { s with ports := k.ports, work := [] } ∧
      ((s.port p).rx = .idle → b = 0xC3 → (x.port p).rx = .inFrame ∧ (x.port p).buffer = [0xC3] ∧ x.latched p .link 0 = s.latched p .link 0) ∧
      ((s.port p).rx = .idle → b ≠ 0xC3 → (x.port p).rx = .skipping ∧ x.latched p .link 0 = true) ∧
      ((s.port p).rx = .inFrame → (s.port p).buffer = [0xC3] → b.toNat < 3 ∨ 48 < b.toNat →
        (x.port p).rx = .skipping ∧ (x.port p).buffer = [] ∧ x.latched p .link 1 = true) ∧
      ((s.port p).rx = .inFrame → (s.port p).buffer = [0xC3] → 3 ≤ b.toNat → b.toNat ≤ 48 →
        (x.port p).rx = .inFrame ∧ (x.port p).buffer = [0xC3, b]) ∧
      ((s.port p).rx = .skipping ∨ (s.port p).rx = .broken → (x.port p).rx = (s.port p).rx ∧ (x.port p).latches = (s.port p).latches) ∧
      ((s.port p).rx = .replying → (x.port p).rx = .replying ∧ (x.port p).overrun = true ∧
        x.latched p .link 4 = (s.latched p .link 4 || !(s.port p).overrun)) ∧
      ((s.port p).rx = .inFrame → (g.port p).rx = .idle ∧ (g.port p).buffer = [] ∧ g.latched p .link 3 = true) ∧
      ((s.port p).rx ≠ .inFrame → (g.port p).rx = (s.port p).rx ∧ (g.port p).latches = (s.port p).latches) ∧
      ((q.port p).rx = if (s.port p).rx = .skipping then .idle else (s.port p).rx) ∧
      ((k.port p).rx = if (s.port p).rx = .broken then .skipping else (s.port p).rx)

/-- RESTART (R147, R156, R160): on Port C it is answered ACCEPTED and waits for the end of its reply, or, while a store write runs, for the end of the
write; on Ports A and B it is refused. REPLY_SENT (R140, R147): the receiver enters SKIPPING; after the reply to a RESTART on Port C the restart takes
effect then, from the stored image when it is sound, with RESTARTED source 1 and the sequence count kept. MODEL'S CHOICES that CameUp states: a barrier
found with both limits and its drive overload MADE enters FAULT with BARRIER_NO_LIMIT alone (log 51), and the detail of a PUMP_OVERLOAD found at the start
names REST (log 42). That the check word agrees is `Store.sound` (log 11). Rests on those of log 26, 34, 44, 45, 52 and 56 too. -/
def Obligations.RestartTakesEffectAfterItsReply : Prop :=
  (∀ (s : State) (p : Port) (tag : Byte), s.powered = true →
      (p ≠ .c → exec (.restart p tag) s = .next (({ s with work := [] }.updateAttention).reply p 0x26 tag ⟨.notPermitted, []⟩)) ∧
      (p = .c → s.store.writing = none →
        exec (.restart p tag) s = .next (({ s with restartAtReply := true, work := [] }.updateAttention).reply p 0x26 tag ⟨.accepted, []⟩)) ∧
      (p = .c → s.store.writing ≠ none →
        exec (.restart p tag) s = .next
          (({ s with store := { s.store with restartHeld := true }, work := [] }.updateAttention).reply p 0x26 tag ⟨.accepted, []⟩))) ∧
  (∀ (s : State) (p : Port) (contacts : BitVec 52) (picks : Picks), s.powered = true → (s.port p).rx = .replying → (s.port p).reply.isSome = true →
      (p ≠ .c ∨ s.restartAtReply = false →
        exec (.replySent p contacts picks) s = .next
          ({ s with ports := s.ports.set p.idx { s.port p with rx := .skipping, reply := none, overrun := false }, work := [] }.settled picks)) ∧
      (p = .c → s.restartAtReply = true →
        ∃ u : State, exec (.replySent p contacts picks) s = .next (u.settled picks) ∧
          u.CameUp (if s.store.sound then s.store.image else ⟨Cfg.factory, Locks.none⟩) contacts 1 s.store.sound ∧ u.nextSeq = s.nextSeq ∧
          u.coil.entries = s.coil.entries ∧ u.store.writing = none ∧ u.store.restartHeld = false))

/-- BREAK (R142, R139): the port's queue, list, latches and reply are emptied and its mask is full, PORT_RESET is latched on the other two, which keep all
else; the port's pump demands go (R72), a RUNNING pump past its min run that nothing wants any more resting, its output OFF; its barrier demands, home sets
and release targets, its shed demands and the restore requests stay. For Port A every pre-arm goes and every deferral ends with DEFER_ENDED (R115): near its
lead time the feed gains AUTO_PREDICT, stands in SHED_WAIT and pulls the LIVE and WARNED feeds below it in its chain (R107), else a DEFERRED one is WARNED and
one in SHED_WAIT waits on. One break makes one reset.
Rests on the model's choices of log 17, 28, 40, 48 and 56. -/
def Obligations.BreakResetsThePortsLink : Prop :=
  ∀ (s : State) (p : Port) (picks : Picks), s.powered = true →
    ((s.port p).rx = .broken → exec (.lineBreak p picks) s = .next ({ s with work := [] }.settled picks)) ∧
    ((s.port p).rx ≠ .broken →
      ∃ u : State, exec (.lineBreak p picks) s = .next (u.settled picks) ∧
        u.port p = { rx := .broken, latches := Vector.replicate 21 0 } ∧ u.ordersOf p = {} ∧
        (∀ q, q ≠ p → u.latched q .portReset p.idx = true ∧ u.ordersOf q = s.ordersOf q ∧
          u.port q = { s.port q with latches := (u.port q).latches }) ∧
        (∀ m : Fin 8,
          let r := { s.pumps[m] with demand := s.pumps[m].demand.put p false, override := s.pumps[m].override && s.pumps[m].demand.auto }
          let rests := r.state = .running ∧ r.minRunElapsed = true ∧ ¬r.Wanted
          (s.pumps[m].demand.has p = false → u.pumps[m] = s.pumps[m] ∧ u.drivers[runD m] = s.drivers[runD m]) ∧
          (s.pumps[m].demand.has p = true → ¬rests → u.pumps[m] = r ∧ u.drivers[runD m] = s.drivers[runD m]) ∧
          (s.pumps[m].demand.has p = true → rests →
            u.pumps[m] = { r with state := .rest, minRun := none, noFlow := none, minOff := some (s.cfg.pumps[m].minOff * 1000) } ∧
            u.drivers[runD m] = { s.drivers[runD m] with commanded := false, energised := false })) ∧
        (∀ d : Fin 44, 8 ≤ d.val → d.val < 20 → u.drivers[d] = s.drivers[d]) ∧
        u = { s with
          pumps := u.pumps, feeds := u.feeds, coil := u.coil, drivers := u.drivers, orders := u.orders, ports := u.ports
          restartAtReply := s.restartAtReply && p != .c, work := u.work } ∧
        (∃ new, s.FeedsTold u new ∧ (p ≠ .a → new = []) ∧
          u.work = ((List.finRange 8).flatMap fun (m : Fin 8) =>
            if s.pumps[m].demand.has p = false then []
            else if u.pumps[m].state = s.pumps[m].state then s.sarTold u m
            else [.sarFreed m, .pumpLeft m s.cfg.pumps[m].sump, .pumpNews m .leftRunning]) ++ new) ∧
        (p ≠ .a → u.feeds = s.feeds ∧ u.coil = s.coil ∧
          (∀ d : Fin 44, 8 ≤ d.val → u.drivers[d] = s.drivers[d]) ∧
          ∀ q k i, q ≠ p → u.latched q k i = (s.latched q k i || decide (k = .portReset ∧ i = p.idx))) ∧
        (p = .a → ∀ q k i, q ≠ p → u.latched q k i = (s.latched q k i ||
          decide ((k = .portReset ∧ i = p.idx) ∨ (k = .deferEnded ∧ ∃ f : Fin 12, i = f.val ∧ s.feeds[f].deferral ≠ none)))) ∧
        (p = .a → ∀ f : Fin 12,
          let v := s.feeds[f]
          let w := u.feeds[f]
          w.deferral = none ∧ w.preArm = none ∧
          w.demand = { v.demand with predict := w.demand.predict } ∧ (v.demand.predict = true → w.demand.predict = true) ∧
          (v.deferral = none → v.state = .restoreWait → v.demand = {} → w.request = v.request) ∧
          (v.deferral = none → v.state ≠ .restoreWait → w.request = v.request)) ∧
        (p = .a → s.CoilRight → ∀ f : Fin 12,
          let v := s.feeds[f]
          let w := u.feeds[f]
          let near := fun (g : Fin 12) => s.feeds[g].deferral ≠ none ∧ s.feedArrival g ≤ s.feeds[g].items.lead
          let pulledBy := fun (g : Fin 12) =>
            s.cfg.feeds[f].enable = true ∧ s.cfg.feeds[g].chain = s.cfg.feeds[f].chain ∧ s.cfg.feeds[f].rank < s.cfg.feeds[g].rank ∧ near g
          let pulledFor := fun (g : Fin 12) => pulledBy g ∧ (s.feeds[g].state = .deferred ∨ (s.feeds[g].state = .shedWait ∧ s.CoilHeld))
          let waits := (w.state = .shedWait ∨ w.state = .shedding) ∧ (s.CoilHeld → u.ShedTested f)
          let predicted := w.demand = { v.demand with predict := true } ∧ waits
          let again := v.request = true → .feedNews f .shedAgain ∈ u.work
          let livesOn := v.deferral = none ∧ (v.state = .live ∨ v.state = .warned)
          (v.deferral ≠ none → v.state = .deferred →
            (near f → predicted ∧ again) ∧
            (¬near f → (∃ g, f < g ∧ pulledFor g) → predicted ∧ again) ∧
            (¬near f → (∀ g, f < g → ¬pulledBy g) → w.demand = v.demand ∧ w.state = .warned ∧ w.clear = 0)) ∧
          (v.deferral ≠ none → v.state = .shedWait → waits ∧ (s.CoilHeld → near f → predicted) ∧ (¬near f → w.demand = v.demand)) ∧
          (livesOn → (∃ g, pulledFor g) → predicted ∧ again) ∧
          (¬(livesOn ∧ ∃ g, pulledBy g) → v.deferral = none → v.state ≠ .shed → v.state ≠ .restoreWait → v.state ≠ .shedWait → w = { v with preArm := none })))

/-- PICTURE, STATE, CONFIG_GET, FAULT and PROBE_RAW (R144, R153): each changes nothing but its port's reply, and answers with the record of its target, or with
the refusal of R143 and R144.
Rests on the model's choices of log 13, 14, 16, 22, 23 and 26. -/
def Obligations.ReadsChangeNothing : Prop :=
  ∀ (s : State) (p : Port) (tag a b : Byte), s.powered = true →
    let t := { s with work := [] }.updateAttention
    (∀ i : Fin 4, a.toNat = i.val → exec (.picture p tag a) s = .next (t.reply p 0x01 tag ⟨.accepted, s.pictureRecord i⟩)) ∧
    (4 ≤ a.toNat → exec (.picture p tag a) s = .next (t.reply p 0x01 tag ⟨.noTarget, []⟩)) ∧
    (6 < a.toNat → exec (.state p tag a b) s = .next (t.reply p 0x02 tag ⟨.badRequest, []⟩)) ∧
    (a.toNat = 0 ∨ a.toNat = 6 → exec (.state p tag a b) s = .next (t.reply p 0x02 tag ⟨.badKind, []⟩)) ∧
    (∀ i : Fin 8, b.toNat = i.val →
      exec (.state p tag 1 b) s = .next (t.reply p 0x02 tag ⟨.accepted, s.probeRecord i⟩) ∧
      exec (.state p tag 2 b) s = .next (t.reply p 0x02 tag ⟨.accepted, s.pumpRecord i⟩)) ∧
    (∀ i : Fin 6, b.toNat = i.val → exec (.state p tag 3 b) s = .next (t.reply p 0x02 tag ⟨.accepted, s.barrierRecord i⟩)) ∧
    (∀ i : Fin 12, b.toNat = i.val → exec (.state p tag 4 b) s = .next (t.reply p 0x02 tag ⟨.accepted, s.feedRecord i⟩)) ∧
    (∀ i : Fin 16, b.toNat = i.val → exec (.state p tag 5 b) s = .next (t.reply p 0x02 tag ⟨.accepted, s.ruleRecord i⟩)) ∧
    (8 ≤ b.toNat → exec (.state p tag 1 b) s = .next (t.reply p 0x02 tag ⟨.noTarget, []⟩) ∧
      exec (.state p tag 2 b) s = .next (t.reply p 0x02 tag ⟨.noTarget, []⟩)) ∧
    (6 ≤ b.toNat → exec (.state p tag 3 b) s = .next (t.reply p 0x02 tag ⟨.noTarget, []⟩)) ∧
    (12 ≤ b.toNat → exec (.state p tag 4 b) s = .next (t.reply p 0x02 tag ⟨.noTarget, []⟩)) ∧
    (16 ≤ b.toNat → exec (.state p tag 5 b) s = .next (t.reply p 0x02 tag ⟨.noTarget, []⟩)) ∧
    (itemName a = none → exec (.configGet p tag a b) s = .next (t.reply p 0x20 tag ⟨.badRequest, []⟩)) ∧
    (∀ name, itemName a = some name → itemRef name b = none → exec (.configGet p tag a b) s = .next (t.reply p 0x20 tag ⟨.noTarget, []⟩)) ∧
    (∀ name r, itemName a = some name → itemRef name b = some r →
      exec (.configGet p tag a b) s = .next (t.reply p 0x20 tag ⟨.accepted, beInt (s.itemValue r)⟩)) ∧
    exec (.fault p tag) s = .next (t.reply p 0x05 tag ⟨.accepted, s.fcr.bytes⟩) ∧
    (p ≠ .c → exec (.probeRaw p tag a) s = .next (t.reply p 0x25 tag ⟨.notPermitted, []⟩)) ∧
    (p = .c → 8 ≤ a.toNat → exec (.probeRaw p tag a) s = .next (t.reply p 0x25 tag ⟨.noTarget, []⟩)) ∧
    (∀ i : Fin 8, p = .c → a.toNat = i.val → exec (.probeRaw p tag a) s = .next
      (t.reply p 0x25 tag ⟨.accepted, byte s.probes[i].raw.length :: s.probes[i].raw.flatMap fun code => [byte (code / 256), byte code]⟩))

/-- EVENTS and MASK (R149): EVENTS answers with the port's report and empties its latch sets, those of the other ports standing; MASK puts the 21 low bits
of its map in the port's mask, changes nothing else of any port but the attention line (R150), and is answered ACCEPTED without data. FAULT_CLEAR (R152) on
any port empties the fault record and the also-occurred set and is answered ACCEPTED, also when they are empty; every latch stays, FAULT_HELD among them; a
report that comes after it fills the empty record.
Rests on the model's choices of log 26. -/
def Obligations.EventsMaskAndFaultClear : Prop :=
  (∀ (s : State) (p : Port) (tag : Byte) (map : BitVec 24), s.powered = true →
    exec (.events p tag) s = .next
      (({ s with ports := s.ports.set p.idx { s.port p with latches := Vector.replicate 21 0 }, work := [] }.updateAttention).reply p 0x03 tag
        ⟨.accepted, (s.port p).report⟩) ∧
    (∃ mask : BitVec 21, (∀ k : Fin 21, mask.getLsbD k = map.getLsbD k) ∧
      exec (.mask p tag map) s = .next
        (({ s with ports := s.ports.set p.idx { s.port p with mask := mask }, work := [] }.updateAttention).reply p 0x04 tag ⟨.accepted, []⟩)) ∧
    ∃ t m : State, exec (.events p tag) s = .next t ∧ exec (.mask p tag map) s = .next m ∧
      (∀ k i, t.latched p k i = false) ∧ (∀ q k i, q ≠ p → t.latched q k i = s.latched q k i) ∧
      (t.port p).attention = !(s.ordersOf p).done.isEmpty ∧
      m = { s with ports := m.ports, work := [] } ∧ (∀ k : Fin 21, (m.port p).mask.getLsbD k = map.getLsbD k) ∧
      (∀ q, q ≠ p → m.port q = { s.port q with attention := (m.port q).attention } ∧ t.port q = { s.port q with attention := (t.port q).attention }) ∧
      (∀ q k i, m.latched q k i = s.latched q k i) ∧
      ((m.port p).attention = true ↔ (s.ordersOf p).done ≠ [] ∨ ∃ k : Fin 21, map.getLsbD k = true ∧ (s.port p).latches[k] ≠ 0) ∧
      ∃ reply, (m.port p).reply = some reply ∧ reply.result = .accepted ∧ reply.data = []) ∧
  ∀ (s : State) (p : Port) (tag : Byte), s.powered = true →
    ∃ t : State, exec (.faultClear p tag) s = .next t ∧ t = { s with fcr := {}, ports := t.ports, work := [] } ∧
      (∀ q k i, t.latched q k i = s.latched q k i) ∧
      (∀ r, (t.handle (.fault r)).fcr = { record := some r, also := 0 }) ∧
      ∃ reply, (t.port p).reply = some reply ∧ reply.result = .accepted ∧ reply.data = [] ∧ reply.faultHeld = false

/-! ### Configuration, lockouts, failures and restarts (chapter 10) -/

/-- CONFIG_SET (R143, R146, R154 to R156): the checks in their order, each refusal changing nothing but the reply: among them VALUE_IN_USE (a closed count or
interval of a travelling barrier, any item of a SHEDDING or RESTORING feed, a supply limit below the slot count), ORDER_VIOLATION (thresholds or heights out of
order) and DUPLICATE_RANK (a rank taken in the chain); else the value, brought to its range,
stands in the working configuration at once, a store write of 40 ms begins with the configuration and the lockout set, and CONFIG source 0 is raised; and the
owning block acts on the item at once, by its class (R155: R8, R31, R34, R44, R51, R64, R69, R70, R81, R102, R120, R135), with the notices it hands on. An item
that its block reads only where it is used, or from the next picture or order (R34, R102, R120), or that holds the value already, changes no unit.
Rests on the model's choices of log 18, 19, 20, 21, 34, 36, 39, 45, 46, 47, 51, 52, 55, 56 and 60. -/
def Obligations.ConfigSetChecksAndWrites : Prop :=
  ∀ (s : State) (p : Port) (tag item unit : Byte) (value : Word16) (picks : Picks), s.powered = true →
    let refused := fun (r : Result) =>
      exec (.configSet p tag item unit value picks) s = .next (({ s with work := [] }.updateAttention).reply p 0x21 tag ⟨r, []⟩)
    (itemName item = none → refused .badRequest) ∧
    ∀ name, itemName item = some name →
      (name.readOnly = true → refused .badRequest) ∧
      (name.readOnly = false → p ≠ .c → refused .notPermitted) ∧
      (name.readOnly = false → p = .c →
        (itemRef name unit = none → refused .noTarget) ∧
        ∀ r, itemRef name unit = some r →
          (s.store.writing ≠ none → refused .busy) ∧
          (s.store.writing = none → s.quiet = false → refused .notQuiet) ∧
          (s.store.writing = none → s.quiet = true →
            let v := if value.toInt < (itemRange r).1 then (itemRange r).1 else if (itemRange r).2 < value.toInt then (itemRange r).2 else value.toInt
            let c := s.cfg.setItem r v
            (s.ItemInUse r c → refused .valueInUse) ∧ (c.ItemDisorders r → refused .orderViolation) ∧
            (¬s.ItemInUse r c → c.ItemDoubles r → refused .duplicateRank) ∧
            (¬s.ItemInUse r c → ¬c.ItemDisorders r → ¬c.ItemDoubles r →
              ∃ u : State, exec (.configSet p tag item unit value picks) s = .next ((u.settled picks).reply p 0x21 tag
                  ⟨if v = value.toInt then .accepted else .clamped, beInt v⟩) ∧
                u.cfg = c ∧ u.locks = s.locks ∧ u.store = { s.store with writing := some ⟨40, ⟨u.cfg, s.locks⟩⟩ } ∧
                u.latchedAll .config 0 = true ∧
                u = { s with
                  cfg := u.cfg, store := u.store, probes := u.probes, sumps := u.sumps, rules := u.rules, pumps := u.pumps, barriers := u.barriers
                  feeds := u.feeds, drivers := u.drivers, sar := u.sar, coil := u.coil, ports := u.ports, work := u.work } ∧
                s.ItemApplied u r c)))

/-- LOCKOUT and UNLOCK (R143, R146, R156, R157): the refusals in their order, each changing nothing but the reply: BAD_REQUEST, NOT_PERMITTED on Ports A
and B, BAD_KIND but for a pump or barrier, NO_TARGET, and BUSY while a write runs. Of a pump (R157, R66, R68) and of a barrier (R95, R97) from Port C: the
lockout set and the locked flag; LOCKED with outputs OFF and timers stopped, or a FAILED or faulted unit that keeps its state; back to REST with the min-
off timer, to FAILED by an overload that stands MADE, or to the state that the limits name; the notices of each; a store write begins and CONFIG is raised
with its source. One that changes nothing begins no write. MODEL'S CHOICE (log 47): a release target that the LOCKOUT finds is held until the UNLOCK.
Rests on the model's choices of log 21, 26, 39, 42 and 47. -/
def Obligations.LockoutAndUnlock : Prop :=
  (∀ (s : State) (p : Port) (tag cls idx : Byte) (picks : Picks), s.powered = true →
    let refused := fun (r : Result) =>
      exec (.lockout p tag cls idx picks) s = .next (({ s with work := [] }.updateAttention).reply p 0x22 tag ⟨r, []⟩) ∧
      exec (.unlock p tag cls idx picks) s = .next (({ s with work := [] }.updateAttention).reply p 0x23 tag ⟨r, []⟩)
    (6 < cls.toNat → refused .badRequest) ∧ (cls.toNat ≤ 6 → p ≠ .c → refused .notPermitted) ∧
    (cls.toNat ≤ 6 → p = .c → cls.toNat ≠ 2 → cls.toNat ≠ 3 → refused .badKind) ∧
    (p = .c → (cls.toNat = 2 ∧ 8 ≤ idx.toNat) ∨ (cls.toNat = 3 ∧ 6 ≤ idx.toNat) → refused .noTarget) ∧
    (p = .c → (cls.toNat = 2 ∧ idx.toNat < 8) ∨ (cls.toNat = 3 ∧ idx.toNat < 6) → s.store.writing ≠ none → refused .busy)) ∧
  ∀ (s : State) (tag idx : Byte) (picks : Picks) (m : Fin 8) (b : Fin 6), s.powered = true → s.store.writing = none →
    let writes := fun (locks : Locks) => { s.store with writing := some ⟨40, ⟨s.cfg, locks⟩⟩ }
    (idx.toNat = m.val →
      let p := s.pumps[m]
      let i := s.cfg.pumps[m].sump
      let off := s.drivers.set (runD m) { s.drivers[runD m] with commanded := false, energised := false }
      let locks := fun (v : Bool) => { s.locks with pumps := s.locks.pumps.set m v }
      (s.locks.pumps[m] = true → exec (.lockout .c tag 2 idx picks) s = .next (({ s with work := [] }.updateAttention).reply .c 0x22 tag ⟨.accepted, []⟩)) ∧
      (s.locks.pumps[m] = false → exec (.unlock .c tag 2 idx picks) s = .next (({ s with work := [] }.updateAttention).reply .c 0x23 tag ⟨.accepted, []⟩)) ∧
      (s.locks.pumps[m] = false →
        ∃ u : State, exec (.lockout .c tag 2 idx picks) s = .next ((u.settled picks).reply .c 0x22 tag ⟨.accepted, []⟩) ∧
          s.Raised u [(.config, 1)] ∧
          u = { s with
            pumps := s.pumps.set m
              (if p.state = .failed then { p with locked := true }
               else { p with state := .locked, locked := true, proving := none, minRun := none, noFlow := none, minOff := none })
            drivers := if p.state = .failed then s.drivers else off
            locks := locks true, store := writes (locks true), ports := u.ports
            work := s.sarTold u m ++ (if p.state = .starting ∨ p.state = .running then [.sarFreed m] else []) ++
              (if p.state = .running then [.pumpLeft m i, .pumpNews m .leftRunning] else []) ++ [.pumpNews m .locked] }) ∧
      (s.locks.pumps[m] = true →
        ∃ u : State, exec (.unlock .c tag 2 idx picks) s = .next ((u.settled picks).reply .c 0x23 tag ⟨.accepted, []⟩) ∧
          let q := { p with locked := false, demand := { p.demand with c := false } }
          let trips := s.contacts[overloadK m].accepted = true ∧ s.cfg.pumps[m].enable = true
          let rests := p.state = .running ∧ p.minRunElapsed = true ∧ q.demand = {}
          let stopped := { q with state := .rest, minOff := some (s.cfg.pumps[m].minOff * 1000) }
          s.Raised u ((if p.state = .locked ∧ trips then [(.pumpFailed, m.val)] else []) ++ [(.config, 2)]) ∧
          u = { s with pumps := u.pumps, drivers := u.drivers, locks := locks false, store := writes (locks false), ports := u.ports, work := u.work } ∧
          (p.state = .locked → ¬trips → u.pumps = s.pumps.set m stopped ∧ u.drivers = s.drivers ∧ u.work = s.sarTold u m ++ [.pumpNews m .unlocked]) ∧
          (p.state = .locked → trips →
            u.pumps = s.pumps.set m
              { q with state := .failed, failure := some .pumpOverload, proving := none, minRun := none, noFlow := none, minOff := none } ∧
            u.drivers = off ∧ u.work = s.sarTold u m ++ [.pumpNews m .unlocked,
              .fault ⟨.pumpOverload, some (.pump m), s.sumps[i].picture.level, s.partTime, .pumpState .rest⟩, .pumpNews m (.failed .pumpOverload)]) ∧
          (p.state ≠ .locked → ¬rests → u.pumps = s.pumps.set m q ∧ u.drivers = s.drivers ∧ u.work = s.sarTold u m ++ [.pumpNews m .unlocked]) ∧
          (rests → u.pumps = s.pumps.set m { stopped with minRun := none, noFlow := none } ∧ u.drivers = off ∧
            u.work = [.pumpNews m .unlocked, .sarFreed m, .pumpLeft m i, .pumpNews m .leftRunning]))) ∧
    (idx.toNat = b.val →
      let r := s.barriers[b]
      let c := s.cfg.barriers[b]
      let travels := r.state = .closing ∨ r.state = .opening ∨ r.state = .homing
      let rests := r.state = .unhomed ∨ r.state = .openEnd ∨ r.state = .stopped ∨ r.state = .closedUnsealed ∨ r.state = .sealed
      let off := (s.drivers.set (driveCloseD b) { s.drivers[driveCloseD b] with commanded := false, energised := false }).set (driveOpenD b)
        { s.drivers[driveOpenD b] with commanded := false, energised := false }
      let locks := fun (v : Bool) => { s.locks with barriers := s.locks.barriers.set b v }
      (s.locks.barriers[b] = true → exec (.lockout .c tag 3 idx picks) s = .next (({ s with work := [] }.updateAttention).reply .c 0x22 tag ⟨.accepted, []⟩)) ∧
      (s.locks.barriers[b] = false → exec (.unlock .c tag 3 idx picks) s = .next (({ s with work := [] }.updateAttention).reply .c 0x23 tag ⟨.accepted, []⟩)) ∧
      (s.locks.barriers[b] = false →
        ∃ u : State, exec (.lockout .c tag 3 idx picks) s = .next ((u.settled picks).reply .c 0x22 tag ⟨.accepted, []⟩) ∧
          let q := { r with locked := true, releaseHeld := true, home := {} }
          let v := if travels then { q with state := .locked, position := none, increment := none }
            else if rests then { q with state := .locked, sealTimer := none } else q
          s.Raised u [(.config, 1)] ∧
          u = { s with
            barriers := s.barriers.set b (s.barrierAfter b v), drivers := if travels then off else s.drivers
            locks := locks true, store := writes (locks true), ports := u.ports
            work := (if travels then [.darFreed b] else []) ++ s.barrierTold u b v ++ [.barrierNews b .locked] } ∧
          (r.closure.c = false → s.barrierAfter b v = v)) ∧
      (s.locks.barriers[b] = true →
        ∃ u : State, exec (.unlock .c tag 3 idx picks) s = .next ((u.settled picks).reply .c 0x23 tag ⟨.accepted, []⟩) ∧
          let q := { r with locked := false, releaseHeld := false, closure := { r.closure with c := false } }
          let open_ := s.contacts[openLimitK b].accepted
          let closed := s.contacts[closedLimitK b].accepted
          let met := s.contacts[sealK b].accepted
          let moved := fun (v : Barrier) (news : List Notice) =>
            s.Raised u [(.config, 2)] ∧ u.drivers = s.drivers ∧ u.barriers = s.barriers.set b (s.barrierAfter b v) ∧
              u.work = .barrierNews b .unlocked :: news ++ s.barrierTold u b v
          u = { s with
            barriers := u.barriers, drivers := u.drivers, locks := locks false, store := writes (locks false), ports := u.ports, work := u.work } ∧
          (∀ k, k ≠ b → u.barriers[k] = s.barriers[k]) ∧
          (r.state ≠ .locked → moved q []) ∧
          (r.state = .locked → open_ = false → closed = false → moved { q with state := if r.position.isSome then .stopped else .unhomed } []) ∧
          (r.state = .locked → open_ = true → closed = false →
            moved { q with state := .openEnd, position := some 0, home := {}, sealTimer := none } [.barrierNews b .reachedOpen]) ∧
          (r.state = .locked → open_ = false → closed = true →
            moved { q with
                state := if met then .sealed else .closedUnsealed, position := some c.closedCount
                sealTimer := if met then none else some (c.sealTime * 1000) }
              (.barrierNews b .closedUnsealed :: if met then [.barrierNews b .sealed] else [])) ∧
          (r.state = .locked → open_ = true → closed = true →
            s.Raised u [(.barrierFault, b.val), (.config, 2)] ∧ u.drivers = off ∧
            u.barriers[b] =
              { q with state := .fault, position := none, increment := none, sealTimer := none, home := {}, failure := some .barrierNoLimit } ∧
            .barrierNews b .unlocked ∈ u.work ∧ .barrierNews b (.faulted .barrierNoLimit) ∈ u.work ∧
            .fault ⟨.barrierNoLimit, some (.barrier b), s.sumps[c.sump].picture.level, s.partTime, .travel none none none⟩ ∈ u.work)))

/-- CLEAR_FAILURE (R143, R146, R62, R94, R118): the refusals in their order, BAD_REQUEST, NOT_PERMITTED on Ports A and B, BAD_KIND but for a pump, barrier or
feed, and NO_TARGET, each changing nothing but the reply; on a unit that has not failed it answers 0 and changes nothing; a FAILED pump with its
overload OPEN rests, one with it MADE stays FAILED with PUMP_OVERLOAD raised again; a barrier in FAULT stays there by its overload or by both limits, which
are reported again, and else takes the state that the limits name, or LOCKED; a feed in FAULT becomes SHED by an OPEN contact, LIVE by a MADE one, or is
shed again when its set is not empty.
Rests on the model's choices of log 21, 26, 39, 40, 42, 50 and 56. -/
def Obligations.ClearFailureClearsTheUnit : Prop :=
  ∀ (s : State) (tag idx : Byte) (picks : Picks), s.powered = true →
    let nothing := fun (cls : Byte) => exec (.clearFailure .c tag cls idx picks) s = .next
      (({ s with work := [] }.updateAttention).reply .c 0x24 tag ⟨.accepted, [0]⟩)
    (∀ p cls,
      let refused := fun (r : Result) =>
        exec (.clearFailure p tag cls idx picks) s = .next (({ s with work := [] }.updateAttention).reply p 0x24 tag ⟨r, []⟩)
      (6 < cls.toNat → refused .badRequest) ∧ (cls.toNat ≤ 6 → p ≠ .c → refused .notPermitted) ∧
      (cls.toNat ≤ 6 → p = .c → cls.toNat ≠ 2 → cls.toNat ≠ 3 → cls.toNat ≠ 4 → refused .badKind) ∧
      (p = .c → (cls.toNat = 2 ∧ 8 ≤ idx.toNat) ∨ (cls.toNat = 3 ∧ 6 ≤ idx.toNat) ∨ (cls.toNat = 4 ∧ 12 ≤ idx.toNat) → refused .noTarget)) ∧
    (∀ m : Fin 8, idx.toNat = m.val →
      (s.pumps[m].state ≠ .failed → nothing 2) ∧
      (s.pumps[m].state = .failed → s.contacts[overloadK m].accepted = false →
        exec (.clearFailure .c tag 2 idx picks) s = .next
          (({ s with
            pumps := s.pumps.set m { s.pumps[m] with state := .rest, failure := none, minOff := some (s.cfg.pumps[m].minOff * 1000) }
            drivers := s.drivers.set (runD m) {}, work := [] }.settled picks).reply .c 0x24 tag ⟨.accepted, [1]⟩)) ∧
      (s.pumps[m].state = .failed → s.contacts[overloadK m].accepted = true →
        ∃ u : State, exec (.clearFailure .c tag 2 idx picks) s = .next ((u.settled picks).reply .c 0x24 tag ⟨.accepted, [1]⟩) ∧
          s.Raised u [(.pumpFailed, m.val)] ∧
          u = { s with
            pumps := s.pumps.set m { s.pumps[m] with failure := some .pumpOverload }
            drivers := s.drivers.set (runD m) {}, ports := u.ports
            work := [.fault ⟨.pumpOverload, some (.pump m), s.sumps[s.cfg.pumps[m].sump].picture.level, s.partTime, .pumpState .failed⟩] })) ∧
    (∀ b : Fin 6, idx.toNat = b.val →
      let r := s.barriers[b]
      let c := s.cfg.barriers[b]
      let tripped := s.contacts[driveOverloadK b].accepted
      let open_ := s.contacts[openLimitK b].accepted
      let closed := s.contacts[closedLimitK b].accepted
      let met := s.contacts[sealK b].accepted
      (r.state ≠ .fault → nothing 3) ∧
      (r.state = .fault →
        ∃ u : State, exec (.clearFailure .c tag 3 idx picks) s = .next ((u.settled picks).reply .c 0x24 tag ⟨.accepted, [1]⟩) ∧
          let again := fun (kind : FaultKind) (detail : FaultDetail) =>
            s.Raised u [(.barrierFault, b.val)] ∧ u.barriers = s.barriers.set b { r with failure := some kind } ∧
              u.work = [.fault ⟨kind, some (.barrier b), s.sumps[c.sump].picture.level, s.partTime, detail⟩]
          let moved := fun (v : Barrier) (news : List Notice) =>
            u.ports = s.ports ∧ u.barriers = s.barriers.set b (s.barrierAfter b v) ∧ u.work = news ++ s.barrierTold u b v
          u = { s with
            barriers := u.barriers, drivers := (s.drivers.set (driveCloseD b) {}).set (driveOpenD b) {}, ports := u.ports, work := u.work } ∧
          (tripped = true → again .barrierOverload (.travel r.position none (some r.travel))) ∧
          (tripped = false → open_ = true → closed = true → again .barrierNoLimit (.travel none none none)) ∧
          (tripped = false → ¬(open_ = true ∧ closed = true) → r.locked = true →
            moved { r with
              state := .locked, failure := none, position := if open_ then some 0 else if closed then some c.closedCount else none } []) ∧
          (tripped = false → open_ = false → closed = false → r.locked = false → moved { r with state := .unhomed, failure := none, position := none } []) ∧
          (tripped = false → open_ = true → closed = false → r.locked = false →
            moved { r with state := .openEnd, failure := none, position := some 0, home := {}, sealTimer := none } [.barrierNews b .reachedOpen]) ∧
          (tripped = false → open_ = false → closed = true → r.locked = false →
            moved { r with
                state := if met then .sealed else .closedUnsealed, failure := none, position := some c.closedCount
                sealTimer := if met then none else some (c.sealTime * 1000) }
              (.barrierNews b .closedUnsealed :: if met then [.barrierNews b .sealed] else [])))) ∧
    (∀ f : Fin 12, idx.toNat = f.val →
      let v := s.feeds[f]
      let made := s.contacts[auxK f].accepted
      (v.state ≠ .fault → nothing 4) ∧
      (s.CoilRight → v.state = .fault →
        ∃ u : State, exec (.clearFailure .c tag 4 idx picks) s = .next ((u.settled picks).reply .c 0x24 tag ⟨.accepted, [1]⟩) ∧
          u = { s with feeds := u.feeds, coil := u.coil, drivers := u.drivers, ports := u.ports, work := u.work } ∧ s.FeedsMove u u.work ∧
          u.feeds[f].failure = none ∧ u.feeds[f].demand = v.demand ∧ u.drivers[shedCoilD f].latch = none ∧ u.drivers[restoreCoilD f].latch = none ∧
          (made = false → u.latchedAll .feedShed f = true ∧ .feedNews f .reachedShed ∈ u.work ∧
            u.feeds[f].cause = (if v.demand.hard then .hard else if v.demand.predict then .predict else if v.demand.a || v.demand.b then .port else .manual) ∧
            (v.demand ≠ {} ∨ v.request = false → u.feeds[f].state = .shed)) ∧
          (made = true → v.demand = {} → u.feeds[f].state = .live ∧ u.feeds[f].request = false ∧ u.latchedAll .feedLive f = true ∧
            .feedNews f .reachedLive ∈ u.work) ∧
          (made = true → v.demand ≠ {} → u.feeds[f].state = .shedWait ∨ u.feeds[f].state = .shedding)))

/-- WRITE_END (R156, R160): with a read-back that agrees the image and its check word stand in the store; with one that does not, the check word stays and
CONFIG_STORE_FAULT is reported; a held restart then takes effect from what the store holds. Without a write nothing happens.
MODEL'S CHOICES that CameUp states: a barrier found with both limits and its drive overload MADE enters FAULT with BARRIER_NO_LIMIT alone (log 51), the
detail of a PUMP_OVERLOAD found at the start names REST (log 42), and a reply being sent on Port C at that moment is dropped (log 61). MODEL'S CHOICE
(log 66): with a read-back that does not agree, the store holds the image that was being written, and a load at which it passes its check brings up that
one. Rests on those of log 8, 11, 34, 44, 45, 52 and 56 too. -/
def Obligations.WriteEndStoresTheImage : Prop :=
  ∀ (s : State) (sound : Bool) (contacts : BitVec 52) (picks : Picks), s.powered = true →
    (∀ agrees, s.store.writing = none → exec (.writeEnd agrees sound contacts picks) s = .next ({ s with work := [] }.settled picks)) ∧
    (∀ w, s.store.writing = some w →
      (s.store.restartHeld = false →
        exec (.writeEnd true sound contacts picks) s = .next
          ({ s with store := ⟨w.image, Config.checkWord w.image, true, none, false⟩, work := [] }.settled picks) ∧
        ∃ u : State, exec (.writeEnd false sound contacts picks) s = .next (u.settled picks) ∧
          u.store = ⟨w.image, s.store.word, sound, none, false⟩ ∧
          u = { s with store := u.store, tornCount := u.tornCount, fcr := u.fcr, ports := u.ports, work := [] } ∧
          (s.fcr.record = none → u.fcr.record = some ⟨.configStore, none, none, s.partTime, .none⟩ ∧ u.latchedAll .faultHeld 9 = true) ∧
          (s.fcr.record ≠ none → u.fcr.record = s.fcr.record ∧ u.fcr.also.getLsbD 9 = true)) ∧
      (s.store.restartHeld = true → ∀ agrees,
        ∃ u : State, exec (.writeEnd agrees sound contacts picks) s = .next (u.settled picks) ∧
          u.CameUp (if agrees || sound then w.image else ⟨Cfg.factory, Locks.none⟩) contacts 1 (agrees || sound) ∧ u.nextSeq = s.nextSeq ∧
          u.store.image = w.image ∧ u.store.writing = none ∧ u.store.restartHeld = false))
end

