-- ==== Sys2Proof/Laws/State.lean ====
section
/-! SUPPORT. One lemma for each field and each update of the state: what the update writes, and that it leaves every other field alone. -/

namespace Sys2Proof.Machine.State

variable (s : State)

/-! ### setProbe -/

@[simp] theorem setProbe_powered (i : Fin 8) (v : Probe) : (s.setProbe i v).powered = s.powered := rfl
@[simp] theorem setProbe_timeMs (i : Fin 8) (v : Probe) : (s.setProbe i v).timeMs = s.timeMs := rfl
@[simp] theorem setProbe_cfg (i : Fin 8) (v : Probe) : (s.setProbe i v).cfg = s.cfg := rfl
@[simp] theorem setProbe_locks (i : Fin 8) (v : Probe) : (s.setProbe i v).locks = s.locks := rfl
@[simp] theorem setProbe_probes (i : Fin 8) (v : Probe) : (s.setProbe i v).probes = s.probes.set i v := rfl
@[simp] theorem setProbe_contacts (i : Fin 8) (v : Probe) : (s.setProbe i v).contacts = s.contacts := rfl
@[simp] theorem setProbe_drivers (i : Fin 8) (v : Probe) : (s.setProbe i v).drivers = s.drivers := rfl
@[simp] theorem setProbe_sumps (i : Fin 8) (v : Probe) : (s.setProbe i v).sumps = s.sumps := rfl
@[simp] theorem setProbe_rules (i : Fin 8) (v : Probe) : (s.setProbe i v).rules = s.rules := rfl
@[simp] theorem setProbe_pumps (i : Fin 8) (v : Probe) : (s.setProbe i v).pumps = s.pumps := rfl
@[simp] theorem setProbe_hourLeft (i : Fin 8) (v : Probe) : (s.setProbe i v).hourLeft = s.hourLeft := rfl
@[simp] theorem setProbe_sar (i : Fin 8) (v : Probe) : (s.setProbe i v).sar = s.sar := rfl
@[simp] theorem setProbe_barriers (i : Fin 8) (v : Probe) : (s.setProbe i v).barriers = s.barriers := rfl
@[simp] theorem setProbe_dar (i : Fin 8) (v : Probe) : (s.setProbe i v).dar = s.dar := rfl
@[simp] theorem setProbe_feeds (i : Fin 8) (v : Probe) : (s.setProbe i v).feeds = s.feeds := rfl
@[simp] theorem setProbe_coil (i : Fin 8) (v : Probe) : (s.setProbe i v).coil = s.coil := rfl
@[simp] theorem setProbe_orders (i : Fin 8) (v : Probe) : (s.setProbe i v).orders = s.orders := rfl
@[simp] theorem setProbe_nextSeq (i : Fin 8) (v : Probe) : (s.setProbe i v).nextSeq = s.nextSeq := rfl
@[simp] theorem setProbe_ageLeft (i : Fin 8) (v : Probe) : (s.setProbe i v).ageLeft = s.ageLeft := rfl
@[simp] theorem setProbe_ports (i : Fin 8) (v : Probe) : (s.setProbe i v).ports = s.ports := rfl
@[simp] theorem setProbe_fcr (i : Fin 8) (v : Probe) : (s.setProbe i v).fcr = s.fcr := rfl
@[simp] theorem setProbe_store (i : Fin 8) (v : Probe) : (s.setProbe i v).store = s.store := rfl
@[simp] theorem setProbe_restartAtReply (i : Fin 8) (v : Probe) : (s.setProbe i v).restartAtReply = s.restartAtReply := rfl
@[simp] theorem setProbe_tornCount (i : Fin 8) (v : Probe) : (s.setProbe i v).tornCount = s.tornCount := rfl
@[simp] theorem setProbe_work (i : Fin 8) (v : Probe) : (s.setProbe i v).work = s.work := rfl
@[simp] theorem setProbe_pending (i : Fin 8) (v : Probe) : (s.setProbe i v).pending = s.pending := rfl

/-! ### setDriver -/

@[simp] theorem setDriver_powered (d : Fin 44) (v : Driver) : (s.setDriver d v).powered = s.powered := rfl
@[simp] theorem setDriver_timeMs (d : Fin 44) (v : Driver) : (s.setDriver d v).timeMs = s.timeMs := rfl
@[simp] theorem setDriver_cfg (d : Fin 44) (v : Driver) : (s.setDriver d v).cfg = s.cfg := rfl
@[simp] theorem setDriver_locks (d : Fin 44) (v : Driver) : (s.setDriver d v).locks = s.locks := rfl
@[simp] theorem setDriver_probes (d : Fin 44) (v : Driver) : (s.setDriver d v).probes = s.probes := rfl
@[simp] theorem setDriver_contacts (d : Fin 44) (v : Driver) : (s.setDriver d v).contacts = s.contacts := rfl
@[simp] theorem setDriver_drivers (d : Fin 44) (v : Driver) : (s.setDriver d v).drivers = s.drivers.set d v := rfl
@[simp] theorem setDriver_sumps (d : Fin 44) (v : Driver) : (s.setDriver d v).sumps = s.sumps := rfl
@[simp] theorem setDriver_rules (d : Fin 44) (v : Driver) : (s.setDriver d v).rules = s.rules := rfl
@[simp] theorem setDriver_pumps (d : Fin 44) (v : Driver) : (s.setDriver d v).pumps = s.pumps := rfl
@[simp] theorem setDriver_hourLeft (d : Fin 44) (v : Driver) : (s.setDriver d v).hourLeft = s.hourLeft := rfl
@[simp] theorem setDriver_sar (d : Fin 44) (v : Driver) : (s.setDriver d v).sar = s.sar := rfl
@[simp] theorem setDriver_barriers (d : Fin 44) (v : Driver) : (s.setDriver d v).barriers = s.barriers := rfl
@[simp] theorem setDriver_dar (d : Fin 44) (v : Driver) : (s.setDriver d v).dar = s.dar := rfl
@[simp] theorem setDriver_feeds (d : Fin 44) (v : Driver) : (s.setDriver d v).feeds = s.feeds := rfl
@[simp] theorem setDriver_coil (d : Fin 44) (v : Driver) : (s.setDriver d v).coil = s.coil := rfl
@[simp] theorem setDriver_orders (d : Fin 44) (v : Driver) : (s.setDriver d v).orders = s.orders := rfl
@[simp] theorem setDriver_nextSeq (d : Fin 44) (v : Driver) : (s.setDriver d v).nextSeq = s.nextSeq := rfl
@[simp] theorem setDriver_ageLeft (d : Fin 44) (v : Driver) : (s.setDriver d v).ageLeft = s.ageLeft := rfl
@[simp] theorem setDriver_ports (d : Fin 44) (v : Driver) : (s.setDriver d v).ports = s.ports := rfl
@[simp] theorem setDriver_fcr (d : Fin 44) (v : Driver) : (s.setDriver d v).fcr = s.fcr := rfl
@[simp] theorem setDriver_store (d : Fin 44) (v : Driver) : (s.setDriver d v).store = s.store := rfl
@[simp] theorem setDriver_restartAtReply (d : Fin 44) (v : Driver) : (s.setDriver d v).restartAtReply = s.restartAtReply := rfl
@[simp] theorem setDriver_tornCount (d : Fin 44) (v : Driver) : (s.setDriver d v).tornCount = s.tornCount := rfl
@[simp] theorem setDriver_work (d : Fin 44) (v : Driver) : (s.setDriver d v).work = s.work := rfl
@[simp] theorem setDriver_pending (d : Fin 44) (v : Driver) : (s.setDriver d v).pending = s.pending := rfl

/-! ### setSump -/

@[simp] theorem setSump_powered (i : Fin 4) (v : Sump) : (s.setSump i v).powered = s.powered := rfl
@[simp] theorem setSump_timeMs (i : Fin 4) (v : Sump) : (s.setSump i v).timeMs = s.timeMs := rfl
@[simp] theorem setSump_cfg (i : Fin 4) (v : Sump) : (s.setSump i v).cfg = s.cfg := rfl
@[simp] theorem setSump_locks (i : Fin 4) (v : Sump) : (s.setSump i v).locks = s.locks := rfl
@[simp] theorem setSump_probes (i : Fin 4) (v : Sump) : (s.setSump i v).probes = s.probes := rfl
@[simp] theorem setSump_contacts (i : Fin 4) (v : Sump) : (s.setSump i v).contacts = s.contacts := rfl
@[simp] theorem setSump_drivers (i : Fin 4) (v : Sump) : (s.setSump i v).drivers = s.drivers := rfl
@[simp] theorem setSump_sumps (i : Fin 4) (v : Sump) : (s.setSump i v).sumps = s.sumps.set i v := rfl
@[simp] theorem setSump_rules (i : Fin 4) (v : Sump) : (s.setSump i v).rules = s.rules := rfl
@[simp] theorem setSump_pumps (i : Fin 4) (v : Sump) : (s.setSump i v).pumps = s.pumps := rfl
@[simp] theorem setSump_hourLeft (i : Fin 4) (v : Sump) : (s.setSump i v).hourLeft = s.hourLeft := rfl
@[simp] theorem setSump_sar (i : Fin 4) (v : Sump) : (s.setSump i v).sar = s.sar := rfl
@[simp] theorem setSump_barriers (i : Fin 4) (v : Sump) : (s.setSump i v).barriers = s.barriers := rfl
@[simp] theorem setSump_dar (i : Fin 4) (v : Sump) : (s.setSump i v).dar = s.dar := rfl
@[simp] theorem setSump_feeds (i : Fin 4) (v : Sump) : (s.setSump i v).feeds = s.feeds := rfl
@[simp] theorem setSump_coil (i : Fin 4) (v : Sump) : (s.setSump i v).coil = s.coil := rfl
@[simp] theorem setSump_orders (i : Fin 4) (v : Sump) : (s.setSump i v).orders = s.orders := rfl
@[simp] theorem setSump_nextSeq (i : Fin 4) (v : Sump) : (s.setSump i v).nextSeq = s.nextSeq := rfl
@[simp] theorem setSump_ageLeft (i : Fin 4) (v : Sump) : (s.setSump i v).ageLeft = s.ageLeft := rfl
@[simp] theorem setSump_ports (i : Fin 4) (v : Sump) : (s.setSump i v).ports = s.ports := rfl
@[simp] theorem setSump_fcr (i : Fin 4) (v : Sump) : (s.setSump i v).fcr = s.fcr := rfl
@[simp] theorem setSump_store (i : Fin 4) (v : Sump) : (s.setSump i v).store = s.store := rfl
@[simp] theorem setSump_restartAtReply (i : Fin 4) (v : Sump) : (s.setSump i v).restartAtReply = s.restartAtReply := rfl
@[simp] theorem setSump_tornCount (i : Fin 4) (v : Sump) : (s.setSump i v).tornCount = s.tornCount := rfl
@[simp] theorem setSump_work (i : Fin 4) (v : Sump) : (s.setSump i v).work = s.work := rfl
@[simp] theorem setSump_pending (i : Fin 4) (v : Sump) : (s.setSump i v).pending = s.pending := rfl

/-! ### setRule -/

@[simp] theorem setRule_powered (i : Fin 16) (v : Rule) : (s.setRule i v).powered = s.powered := rfl
@[simp] theorem setRule_timeMs (i : Fin 16) (v : Rule) : (s.setRule i v).timeMs = s.timeMs := rfl
@[simp] theorem setRule_cfg (i : Fin 16) (v : Rule) : (s.setRule i v).cfg = s.cfg := rfl
@[simp] theorem setRule_locks (i : Fin 16) (v : Rule) : (s.setRule i v).locks = s.locks := rfl
@[simp] theorem setRule_probes (i : Fin 16) (v : Rule) : (s.setRule i v).probes = s.probes := rfl
@[simp] theorem setRule_contacts (i : Fin 16) (v : Rule) : (s.setRule i v).contacts = s.contacts := rfl
@[simp] theorem setRule_drivers (i : Fin 16) (v : Rule) : (s.setRule i v).drivers = s.drivers := rfl
@[simp] theorem setRule_sumps (i : Fin 16) (v : Rule) : (s.setRule i v).sumps = s.sumps := rfl
@[simp] theorem setRule_rules (i : Fin 16) (v : Rule) : (s.setRule i v).rules = s.rules.set i v := rfl
@[simp] theorem setRule_pumps (i : Fin 16) (v : Rule) : (s.setRule i v).pumps = s.pumps := rfl
@[simp] theorem setRule_hourLeft (i : Fin 16) (v : Rule) : (s.setRule i v).hourLeft = s.hourLeft := rfl
@[simp] theorem setRule_sar (i : Fin 16) (v : Rule) : (s.setRule i v).sar = s.sar := rfl
@[simp] theorem setRule_barriers (i : Fin 16) (v : Rule) : (s.setRule i v).barriers = s.barriers := rfl
@[simp] theorem setRule_dar (i : Fin 16) (v : Rule) : (s.setRule i v).dar = s.dar := rfl
@[simp] theorem setRule_feeds (i : Fin 16) (v : Rule) : (s.setRule i v).feeds = s.feeds := rfl
@[simp] theorem setRule_coil (i : Fin 16) (v : Rule) : (s.setRule i v).coil = s.coil := rfl
@[simp] theorem setRule_orders (i : Fin 16) (v : Rule) : (s.setRule i v).orders = s.orders := rfl
@[simp] theorem setRule_nextSeq (i : Fin 16) (v : Rule) : (s.setRule i v).nextSeq = s.nextSeq := rfl
@[simp] theorem setRule_ageLeft (i : Fin 16) (v : Rule) : (s.setRule i v).ageLeft = s.ageLeft := rfl
@[simp] theorem setRule_ports (i : Fin 16) (v : Rule) : (s.setRule i v).ports = s.ports := rfl
@[simp] theorem setRule_fcr (i : Fin 16) (v : Rule) : (s.setRule i v).fcr = s.fcr := rfl
@[simp] theorem setRule_store (i : Fin 16) (v : Rule) : (s.setRule i v).store = s.store := rfl
@[simp] theorem setRule_restartAtReply (i : Fin 16) (v : Rule) : (s.setRule i v).restartAtReply = s.restartAtReply := rfl
@[simp] theorem setRule_tornCount (i : Fin 16) (v : Rule) : (s.setRule i v).tornCount = s.tornCount := rfl
@[simp] theorem setRule_work (i : Fin 16) (v : Rule) : (s.setRule i v).work = s.work := rfl
@[simp] theorem setRule_pending (i : Fin 16) (v : Rule) : (s.setRule i v).pending = s.pending := rfl

/-! ### setPump -/

@[simp] theorem setPump_powered (m : Fin 8) (v : Pump) : (s.setPump m v).powered = s.powered := rfl
@[simp] theorem setPump_timeMs (m : Fin 8) (v : Pump) : (s.setPump m v).timeMs = s.timeMs := rfl
@[simp] theorem setPump_cfg (m : Fin 8) (v : Pump) : (s.setPump m v).cfg = s.cfg := rfl
@[simp] theorem setPump_locks (m : Fin 8) (v : Pump) : (s.setPump m v).locks = s.locks := rfl
@[simp] theorem setPump_probes (m : Fin 8) (v : Pump) : (s.setPump m v).probes = s.probes := rfl
@[simp] theorem setPump_contacts (m : Fin 8) (v : Pump) : (s.setPump m v).contacts = s.contacts := rfl
@[simp] theorem setPump_drivers (m : Fin 8) (v : Pump) : (s.setPump m v).drivers = s.drivers := rfl
@[simp] theorem setPump_sumps (m : Fin 8) (v : Pump) : (s.setPump m v).sumps = s.sumps := rfl
@[simp] theorem setPump_rules (m : Fin 8) (v : Pump) : (s.setPump m v).rules = s.rules := rfl
@[simp] theorem setPump_pumps (m : Fin 8) (v : Pump) : (s.setPump m v).pumps = s.pumps.set m v := rfl
@[simp] theorem setPump_hourLeft (m : Fin 8) (v : Pump) : (s.setPump m v).hourLeft = s.hourLeft := rfl
@[simp] theorem setPump_sar (m : Fin 8) (v : Pump) : (s.setPump m v).sar = s.sar := rfl
@[simp] theorem setPump_barriers (m : Fin 8) (v : Pump) : (s.setPump m v).barriers = s.barriers := rfl
@[simp] theorem setPump_dar (m : Fin 8) (v : Pump) : (s.setPump m v).dar = s.dar := rfl
@[simp] theorem setPump_feeds (m : Fin 8) (v : Pump) : (s.setPump m v).feeds = s.feeds := rfl
@[simp] theorem setPump_coil (m : Fin 8) (v : Pump) : (s.setPump m v).coil = s.coil := rfl
@[simp] theorem setPump_orders (m : Fin 8) (v : Pump) : (s.setPump m v).orders = s.orders := rfl
@[simp] theorem setPump_nextSeq (m : Fin 8) (v : Pump) : (s.setPump m v).nextSeq = s.nextSeq := rfl
@[simp] theorem setPump_ageLeft (m : Fin 8) (v : Pump) : (s.setPump m v).ageLeft = s.ageLeft := rfl
@[simp] theorem setPump_ports (m : Fin 8) (v : Pump) : (s.setPump m v).ports = s.ports := rfl
@[simp] theorem setPump_fcr (m : Fin 8) (v : Pump) : (s.setPump m v).fcr = s.fcr := rfl
@[simp] theorem setPump_store (m : Fin 8) (v : Pump) : (s.setPump m v).store = s.store := rfl
@[simp] theorem setPump_restartAtReply (m : Fin 8) (v : Pump) : (s.setPump m v).restartAtReply = s.restartAtReply := rfl
@[simp] theorem setPump_tornCount (m : Fin 8) (v : Pump) : (s.setPump m v).tornCount = s.tornCount := rfl
@[simp] theorem setPump_work (m : Fin 8) (v : Pump) : (s.setPump m v).work = s.work := rfl
@[simp] theorem setPump_pending (m : Fin 8) (v : Pump) : (s.setPump m v).pending = s.pending := rfl

/-! ### setBarrier -/

@[simp] theorem setBarrier_powered (b : Fin 6) (v : Barrier) : (s.setBarrier b v).powered = s.powered := rfl
@[simp] theorem setBarrier_timeMs (b : Fin 6) (v : Barrier) : (s.setBarrier b v).timeMs = s.timeMs := rfl
@[simp] theorem setBarrier_cfg (b : Fin 6) (v : Barrier) : (s.setBarrier b v).cfg = s.cfg := rfl
@[simp] theorem setBarrier_locks (b : Fin 6) (v : Barrier) : (s.setBarrier b v).locks = s.locks := rfl
@[simp] theorem setBarrier_probes (b : Fin 6) (v : Barrier) : (s.setBarrier b v).probes = s.probes := rfl
@[simp] theorem setBarrier_contacts (b : Fin 6) (v : Barrier) : (s.setBarrier b v).contacts = s.contacts := rfl
@[simp] theorem setBarrier_drivers (b : Fin 6) (v : Barrier) : (s.setBarrier b v).drivers = s.drivers := rfl
@[simp] theorem setBarrier_sumps (b : Fin 6) (v : Barrier) : (s.setBarrier b v).sumps = s.sumps := rfl
@[simp] theorem setBarrier_rules (b : Fin 6) (v : Barrier) : (s.setBarrier b v).rules = s.rules := rfl
@[simp] theorem setBarrier_pumps (b : Fin 6) (v : Barrier) : (s.setBarrier b v).pumps = s.pumps := rfl
@[simp] theorem setBarrier_hourLeft (b : Fin 6) (v : Barrier) : (s.setBarrier b v).hourLeft = s.hourLeft := rfl
@[simp] theorem setBarrier_sar (b : Fin 6) (v : Barrier) : (s.setBarrier b v).sar = s.sar := rfl
@[simp] theorem setBarrier_barriers (b : Fin 6) (v : Barrier) : (s.setBarrier b v).barriers = s.barriers.set b v := rfl
@[simp] theorem setBarrier_dar (b : Fin 6) (v : Barrier) : (s.setBarrier b v).dar = s.dar := rfl
@[simp] theorem setBarrier_feeds (b : Fin 6) (v : Barrier) : (s.setBarrier b v).feeds = s.feeds := rfl
@[simp] theorem setBarrier_coil (b : Fin 6) (v : Barrier) : (s.setBarrier b v).coil = s.coil := rfl
@[simp] theorem setBarrier_orders (b : Fin 6) (v : Barrier) : (s.setBarrier b v).orders = s.orders := rfl
@[simp] theorem setBarrier_nextSeq (b : Fin 6) (v : Barrier) : (s.setBarrier b v).nextSeq = s.nextSeq := rfl
@[simp] theorem setBarrier_ageLeft (b : Fin 6) (v : Barrier) : (s.setBarrier b v).ageLeft = s.ageLeft := rfl
@[simp] theorem setBarrier_ports (b : Fin 6) (v : Barrier) : (s.setBarrier b v).ports = s.ports := rfl
@[simp] theorem setBarrier_fcr (b : Fin 6) (v : Barrier) : (s.setBarrier b v).fcr = s.fcr := rfl
@[simp] theorem setBarrier_store (b : Fin 6) (v : Barrier) : (s.setBarrier b v).store = s.store := rfl
@[simp] theorem setBarrier_restartAtReply (b : Fin 6) (v : Barrier) : (s.setBarrier b v).restartAtReply = s.restartAtReply := rfl
@[simp] theorem setBarrier_tornCount (b : Fin 6) (v : Barrier) : (s.setBarrier b v).tornCount = s.tornCount := rfl
@[simp] theorem setBarrier_work (b : Fin 6) (v : Barrier) : (s.setBarrier b v).work = s.work := rfl
@[simp] theorem setBarrier_pending (b : Fin 6) (v : Barrier) : (s.setBarrier b v).pending = s.pending := rfl

/-! ### setFeed -/

@[simp] theorem setFeed_powered (f : Fin 12) (v : Feed) : (s.setFeed f v).powered = s.powered := rfl
@[simp] theorem setFeed_timeMs (f : Fin 12) (v : Feed) : (s.setFeed f v).timeMs = s.timeMs := rfl
@[simp] theorem setFeed_cfg (f : Fin 12) (v : Feed) : (s.setFeed f v).cfg = s.cfg := rfl
@[simp] theorem setFeed_locks (f : Fin 12) (v : Feed) : (s.setFeed f v).locks = s.locks := rfl
@[simp] theorem setFeed_probes (f : Fin 12) (v : Feed) : (s.setFeed f v).probes = s.probes := rfl
@[simp] theorem setFeed_contacts (f : Fin 12) (v : Feed) : (s.setFeed f v).contacts = s.contacts := rfl
@[simp] theorem setFeed_drivers (f : Fin 12) (v : Feed) : (s.setFeed f v).drivers = s.drivers := rfl
@[simp] theorem setFeed_sumps (f : Fin 12) (v : Feed) : (s.setFeed f v).sumps = s.sumps := rfl
@[simp] theorem setFeed_rules (f : Fin 12) (v : Feed) : (s.setFeed f v).rules = s.rules := rfl
@[simp] theorem setFeed_pumps (f : Fin 12) (v : Feed) : (s.setFeed f v).pumps = s.pumps := rfl
@[simp] theorem setFeed_hourLeft (f : Fin 12) (v : Feed) : (s.setFeed f v).hourLeft = s.hourLeft := rfl
@[simp] theorem setFeed_sar (f : Fin 12) (v : Feed) : (s.setFeed f v).sar = s.sar := rfl
@[simp] theorem setFeed_barriers (f : Fin 12) (v : Feed) : (s.setFeed f v).barriers = s.barriers := rfl
@[simp] theorem setFeed_dar (f : Fin 12) (v : Feed) : (s.setFeed f v).dar = s.dar := rfl
@[simp] theorem setFeed_feeds (f : Fin 12) (v : Feed) : (s.setFeed f v).feeds = s.feeds.set f v := rfl
@[simp] theorem setFeed_coil (f : Fin 12) (v : Feed) : (s.setFeed f v).coil = s.coil := rfl
@[simp] theorem setFeed_orders (f : Fin 12) (v : Feed) : (s.setFeed f v).orders = s.orders := rfl
@[simp] theorem setFeed_nextSeq (f : Fin 12) (v : Feed) : (s.setFeed f v).nextSeq = s.nextSeq := rfl
@[simp] theorem setFeed_ageLeft (f : Fin 12) (v : Feed) : (s.setFeed f v).ageLeft = s.ageLeft := rfl
@[simp] theorem setFeed_ports (f : Fin 12) (v : Feed) : (s.setFeed f v).ports = s.ports := rfl
@[simp] theorem setFeed_fcr (f : Fin 12) (v : Feed) : (s.setFeed f v).fcr = s.fcr := rfl
@[simp] theorem setFeed_store (f : Fin 12) (v : Feed) : (s.setFeed f v).store = s.store := rfl
@[simp] theorem setFeed_restartAtReply (f : Fin 12) (v : Feed) : (s.setFeed f v).restartAtReply = s.restartAtReply := rfl
@[simp] theorem setFeed_tornCount (f : Fin 12) (v : Feed) : (s.setFeed f v).tornCount = s.tornCount := rfl
@[simp] theorem setFeed_work (f : Fin 12) (v : Feed) : (s.setFeed f v).work = s.work := rfl
@[simp] theorem setFeed_pending (f : Fin 12) (v : Feed) : (s.setFeed f v).pending = s.pending := rfl

/-! ### takeItems -/

@[simp] theorem takeItems_powered (f : Fin 12) : (s.takeItems f).powered = s.powered := rfl
@[simp] theorem takeItems_timeMs (f : Fin 12) : (s.takeItems f).timeMs = s.timeMs := rfl
@[simp] theorem takeItems_cfg (f : Fin 12) : (s.takeItems f).cfg = s.cfg := rfl
@[simp] theorem takeItems_locks (f : Fin 12) : (s.takeItems f).locks = s.locks := rfl
@[simp] theorem takeItems_probes (f : Fin 12) : (s.takeItems f).probes = s.probes := rfl
@[simp] theorem takeItems_contacts (f : Fin 12) : (s.takeItems f).contacts = s.contacts := rfl
@[simp] theorem takeItems_drivers (f : Fin 12) : (s.takeItems f).drivers = s.drivers := rfl
@[simp] theorem takeItems_sumps (f : Fin 12) : (s.takeItems f).sumps = s.sumps := rfl
@[simp] theorem takeItems_rules (f : Fin 12) : (s.takeItems f).rules = s.rules := rfl
@[simp] theorem takeItems_pumps (f : Fin 12) : (s.takeItems f).pumps = s.pumps := rfl
@[simp] theorem takeItems_hourLeft (f : Fin 12) : (s.takeItems f).hourLeft = s.hourLeft := rfl
@[simp] theorem takeItems_sar (f : Fin 12) : (s.takeItems f).sar = s.sar := rfl
@[simp] theorem takeItems_barriers (f : Fin 12) : (s.takeItems f).barriers = s.barriers := rfl
@[simp] theorem takeItems_dar (f : Fin 12) : (s.takeItems f).dar = s.dar := rfl
@[simp] theorem takeItems_feeds (f : Fin 12) : (s.takeItems f).feeds = s.feeds.set f { s.feeds[f] with items := s.cfg.feeds[f].items } := rfl
@[simp] theorem takeItems_coil (f : Fin 12) : (s.takeItems f).coil = s.coil := rfl
@[simp] theorem takeItems_orders (f : Fin 12) : (s.takeItems f).orders = s.orders := rfl
@[simp] theorem takeItems_nextSeq (f : Fin 12) : (s.takeItems f).nextSeq = s.nextSeq := rfl
@[simp] theorem takeItems_ageLeft (f : Fin 12) : (s.takeItems f).ageLeft = s.ageLeft := rfl
@[simp] theorem takeItems_ports (f : Fin 12) : (s.takeItems f).ports = s.ports := rfl
@[simp] theorem takeItems_fcr (f : Fin 12) : (s.takeItems f).fcr = s.fcr := rfl
@[simp] theorem takeItems_store (f : Fin 12) : (s.takeItems f).store = s.store := rfl
@[simp] theorem takeItems_restartAtReply (f : Fin 12) : (s.takeItems f).restartAtReply = s.restartAtReply := rfl
@[simp] theorem takeItems_tornCount (f : Fin 12) : (s.takeItems f).tornCount = s.tornCount := rfl
@[simp] theorem takeItems_work (f : Fin 12) : (s.takeItems f).work = s.work := rfl
@[simp] theorem takeItems_pending (f : Fin 12) : (s.takeItems f).pending = s.pending := rfl

/-! ### setPort -/

@[simp] theorem setPort_powered (p : Port) (v : PortState) : (s.setPort p v).powered = s.powered := rfl
@[simp] theorem setPort_timeMs (p : Port) (v : PortState) : (s.setPort p v).timeMs = s.timeMs := rfl
@[simp] theorem setPort_cfg (p : Port) (v : PortState) : (s.setPort p v).cfg = s.cfg := rfl
@[simp] theorem setPort_locks (p : Port) (v : PortState) : (s.setPort p v).locks = s.locks := rfl
@[simp] theorem setPort_probes (p : Port) (v : PortState) : (s.setPort p v).probes = s.probes := rfl
@[simp] theorem setPort_contacts (p : Port) (v : PortState) : (s.setPort p v).contacts = s.contacts := rfl
@[simp] theorem setPort_drivers (p : Port) (v : PortState) : (s.setPort p v).drivers = s.drivers := rfl
@[simp] theorem setPort_sumps (p : Port) (v : PortState) : (s.setPort p v).sumps = s.sumps := rfl
@[simp] theorem setPort_rules (p : Port) (v : PortState) : (s.setPort p v).rules = s.rules := rfl
@[simp] theorem setPort_pumps (p : Port) (v : PortState) : (s.setPort p v).pumps = s.pumps := rfl
@[simp] theorem setPort_hourLeft (p : Port) (v : PortState) : (s.setPort p v).hourLeft = s.hourLeft := rfl
@[simp] theorem setPort_sar (p : Port) (v : PortState) : (s.setPort p v).sar = s.sar := rfl
@[simp] theorem setPort_barriers (p : Port) (v : PortState) : (s.setPort p v).barriers = s.barriers := rfl
@[simp] theorem setPort_dar (p : Port) (v : PortState) : (s.setPort p v).dar = s.dar := rfl
@[simp] theorem setPort_feeds (p : Port) (v : PortState) : (s.setPort p v).feeds = s.feeds := rfl
@[simp] theorem setPort_coil (p : Port) (v : PortState) : (s.setPort p v).coil = s.coil := rfl
@[simp] theorem setPort_orders (p : Port) (v : PortState) : (s.setPort p v).orders = s.orders := rfl
@[simp] theorem setPort_nextSeq (p : Port) (v : PortState) : (s.setPort p v).nextSeq = s.nextSeq := rfl
@[simp] theorem setPort_ageLeft (p : Port) (v : PortState) : (s.setPort p v).ageLeft = s.ageLeft := rfl
@[simp] theorem setPort_ports (p : Port) (v : PortState) : (s.setPort p v).ports = s.ports.set p.idx v := rfl
@[simp] theorem setPort_fcr (p : Port) (v : PortState) : (s.setPort p v).fcr = s.fcr := rfl
@[simp] theorem setPort_store (p : Port) (v : PortState) : (s.setPort p v).store = s.store := rfl
@[simp] theorem setPort_restartAtReply (p : Port) (v : PortState) : (s.setPort p v).restartAtReply = s.restartAtReply := rfl
@[simp] theorem setPort_tornCount (p : Port) (v : PortState) : (s.setPort p v).tornCount = s.tornCount := rfl
@[simp] theorem setPort_work (p : Port) (v : PortState) : (s.setPort p v).work = s.work := rfl
@[simp] theorem setPort_pending (p : Port) (v : PortState) : (s.setPort p v).pending = s.pending := rfl

/-! ### setOrders -/

@[simp] theorem setOrders_powered (p : Port) (v : PortOrders) : (s.setOrders p v).powered = s.powered := rfl
@[simp] theorem setOrders_timeMs (p : Port) (v : PortOrders) : (s.setOrders p v).timeMs = s.timeMs := rfl
@[simp] theorem setOrders_cfg (p : Port) (v : PortOrders) : (s.setOrders p v).cfg = s.cfg := rfl
@[simp] theorem setOrders_locks (p : Port) (v : PortOrders) : (s.setOrders p v).locks = s.locks := rfl
@[simp] theorem setOrders_probes (p : Port) (v : PortOrders) : (s.setOrders p v).probes = s.probes := rfl
@[simp] theorem setOrders_contacts (p : Port) (v : PortOrders) : (s.setOrders p v).contacts = s.contacts := rfl
@[simp] theorem setOrders_drivers (p : Port) (v : PortOrders) : (s.setOrders p v).drivers = s.drivers := rfl
@[simp] theorem setOrders_sumps (p : Port) (v : PortOrders) : (s.setOrders p v).sumps = s.sumps := rfl
@[simp] theorem setOrders_rules (p : Port) (v : PortOrders) : (s.setOrders p v).rules = s.rules := rfl
@[simp] theorem setOrders_pumps (p : Port) (v : PortOrders) : (s.setOrders p v).pumps = s.pumps := rfl
@[simp] theorem setOrders_hourLeft (p : Port) (v : PortOrders) : (s.setOrders p v).hourLeft = s.hourLeft := rfl
@[simp] theorem setOrders_sar (p : Port) (v : PortOrders) : (s.setOrders p v).sar = s.sar := rfl
@[simp] theorem setOrders_barriers (p : Port) (v : PortOrders) : (s.setOrders p v).barriers = s.barriers := rfl
@[simp] theorem setOrders_dar (p : Port) (v : PortOrders) : (s.setOrders p v).dar = s.dar := rfl
@[simp] theorem setOrders_feeds (p : Port) (v : PortOrders) : (s.setOrders p v).feeds = s.feeds := rfl
@[simp] theorem setOrders_coil (p : Port) (v : PortOrders) : (s.setOrders p v).coil = s.coil := rfl
@[simp] theorem setOrders_orders (p : Port) (v : PortOrders) : (s.setOrders p v).orders = s.orders.set p.idx v := rfl
@[simp] theorem setOrders_nextSeq (p : Port) (v : PortOrders) : (s.setOrders p v).nextSeq = s.nextSeq := rfl
@[simp] theorem setOrders_ageLeft (p : Port) (v : PortOrders) : (s.setOrders p v).ageLeft = s.ageLeft := rfl
@[simp] theorem setOrders_ports (p : Port) (v : PortOrders) : (s.setOrders p v).ports = s.ports := rfl
@[simp] theorem setOrders_fcr (p : Port) (v : PortOrders) : (s.setOrders p v).fcr = s.fcr := rfl
@[simp] theorem setOrders_store (p : Port) (v : PortOrders) : (s.setOrders p v).store = s.store := rfl
@[simp] theorem setOrders_restartAtReply (p : Port) (v : PortOrders) : (s.setOrders p v).restartAtReply = s.restartAtReply := rfl
@[simp] theorem setOrders_tornCount (p : Port) (v : PortOrders) : (s.setOrders p v).tornCount = s.tornCount := rfl
@[simp] theorem setOrders_work (p : Port) (v : PortOrders) : (s.setOrders p v).work = s.work := rfl
@[simp] theorem setOrders_pending (p : Port) (v : PortOrders) : (s.setOrders p v).pending = s.pending := rfl

/-! ### emit -/

@[simp] theorem emit_powered (n : Notice) : (s.emit n).powered = s.powered := rfl
@[simp] theorem emit_timeMs (n : Notice) : (s.emit n).timeMs = s.timeMs := rfl
@[simp] theorem emit_cfg (n : Notice) : (s.emit n).cfg = s.cfg := rfl
@[simp] theorem emit_locks (n : Notice) : (s.emit n).locks = s.locks := rfl
@[simp] theorem emit_probes (n : Notice) : (s.emit n).probes = s.probes := rfl
@[simp] theorem emit_contacts (n : Notice) : (s.emit n).contacts = s.contacts := rfl
@[simp] theorem emit_drivers (n : Notice) : (s.emit n).drivers = s.drivers := rfl
@[simp] theorem emit_sumps (n : Notice) : (s.emit n).sumps = s.sumps := rfl
@[simp] theorem emit_rules (n : Notice) : (s.emit n).rules = s.rules := rfl
@[simp] theorem emit_pumps (n : Notice) : (s.emit n).pumps = s.pumps := rfl
@[simp] theorem emit_hourLeft (n : Notice) : (s.emit n).hourLeft = s.hourLeft := rfl
@[simp] theorem emit_sar (n : Notice) : (s.emit n).sar = s.sar := rfl
@[simp] theorem emit_barriers (n : Notice) : (s.emit n).barriers = s.barriers := rfl
@[simp] theorem emit_dar (n : Notice) : (s.emit n).dar = s.dar := rfl
@[simp] theorem emit_feeds (n : Notice) : (s.emit n).feeds = s.feeds := rfl
@[simp] theorem emit_coil (n : Notice) : (s.emit n).coil = s.coil := rfl
@[simp] theorem emit_orders (n : Notice) : (s.emit n).orders = s.orders := rfl
@[simp] theorem emit_nextSeq (n : Notice) : (s.emit n).nextSeq = s.nextSeq := rfl
@[simp] theorem emit_ageLeft (n : Notice) : (s.emit n).ageLeft = s.ageLeft := rfl
@[simp] theorem emit_ports (n : Notice) : (s.emit n).ports = s.ports := rfl
@[simp] theorem emit_fcr (n : Notice) : (s.emit n).fcr = s.fcr := rfl
@[simp] theorem emit_store (n : Notice) : (s.emit n).store = s.store := rfl
@[simp] theorem emit_restartAtReply (n : Notice) : (s.emit n).restartAtReply = s.restartAtReply := rfl
@[simp] theorem emit_tornCount (n : Notice) : (s.emit n).tornCount = s.tornCount := rfl
@[simp] theorem emit_work (n : Notice) : (s.emit n).work = s.work ++ [n] := rfl
@[simp] theorem emit_pending (n : Notice) : (s.emit n).pending = s.pending := rfl

/-! ### setCfg -/

@[simp] theorem setCfg_powered (c : Cfg) : (s.setCfg c).powered = s.powered := rfl
@[simp] theorem setCfg_timeMs (c : Cfg) : (s.setCfg c).timeMs = s.timeMs := rfl
@[simp] theorem setCfg_cfg (c : Cfg) : (s.setCfg c).cfg = c := rfl
@[simp] theorem setCfg_locks (c : Cfg) : (s.setCfg c).locks = s.locks := rfl
@[simp] theorem setCfg_probes (c : Cfg) : (s.setCfg c).probes = s.probes := rfl
@[simp] theorem setCfg_contacts (c : Cfg) : (s.setCfg c).contacts = s.contacts := rfl
@[simp] theorem setCfg_drivers (c : Cfg) : (s.setCfg c).drivers = s.drivers := rfl
@[simp] theorem setCfg_sumps (c : Cfg) : (s.setCfg c).sumps = s.sumps := rfl
@[simp] theorem setCfg_rules (c : Cfg) : (s.setCfg c).rules = s.rules := rfl
@[simp] theorem setCfg_pumps (c : Cfg) : (s.setCfg c).pumps = s.pumps := rfl
@[simp] theorem setCfg_hourLeft (c : Cfg) : (s.setCfg c).hourLeft = s.hourLeft := rfl
@[simp] theorem setCfg_sar (c : Cfg) : (s.setCfg c).sar = s.sar := rfl
@[simp] theorem setCfg_barriers (c : Cfg) : (s.setCfg c).barriers = s.barriers := rfl
@[simp] theorem setCfg_dar (c : Cfg) : (s.setCfg c).dar = s.dar := rfl
@[simp] theorem setCfg_feeds (c : Cfg) : (s.setCfg c).feeds = s.feeds := rfl
@[simp] theorem setCfg_coil (c : Cfg) : (s.setCfg c).coil = s.coil := rfl
@[simp] theorem setCfg_orders (c : Cfg) : (s.setCfg c).orders = s.orders := rfl
@[simp] theorem setCfg_nextSeq (c : Cfg) : (s.setCfg c).nextSeq = s.nextSeq := rfl
@[simp] theorem setCfg_ageLeft (c : Cfg) : (s.setCfg c).ageLeft = s.ageLeft := rfl
@[simp] theorem setCfg_ports (c : Cfg) : (s.setCfg c).ports = s.ports := rfl
@[simp] theorem setCfg_fcr (c : Cfg) : (s.setCfg c).fcr = s.fcr := rfl
@[simp] theorem setCfg_store (c : Cfg) : (s.setCfg c).store = s.store := rfl
@[simp] theorem setCfg_restartAtReply (c : Cfg) : (s.setCfg c).restartAtReply = s.restartAtReply := rfl
@[simp] theorem setCfg_tornCount (c : Cfg) : (s.setCfg c).tornCount = s.tornCount := rfl
@[simp] theorem setCfg_work (c : Cfg) : (s.setCfg c).work = s.work := rfl
@[simp] theorem setCfg_pending (c : Cfg) : (s.setCfg c).pending = s.pending := rfl

/-! ### begun -/

@[simp] theorem begun_powered : (s.begun).powered = s.powered := rfl
@[simp] theorem begun_timeMs : (s.begun).timeMs = s.timeMs := rfl
@[simp] theorem begun_cfg : (s.begun).cfg = s.cfg := rfl
@[simp] theorem begun_locks : (s.begun).locks = s.locks := rfl
@[simp] theorem begun_probes : (s.begun).probes = s.probes := rfl
@[simp] theorem begun_contacts : (s.begun).contacts = s.contacts := rfl
@[simp] theorem begun_drivers : (s.begun).drivers = s.drivers := rfl
@[simp] theorem begun_sumps : (s.begun).sumps = s.sumps := rfl
@[simp] theorem begun_rules : (s.begun).rules = s.rules := rfl
@[simp] theorem begun_pumps : (s.begun).pumps = s.pumps := rfl
@[simp] theorem begun_hourLeft : (s.begun).hourLeft = s.hourLeft := rfl
@[simp] theorem begun_sar : (s.begun).sar = s.sar := rfl
@[simp] theorem begun_barriers : (s.begun).barriers = s.barriers := rfl
@[simp] theorem begun_dar : (s.begun).dar = s.dar := rfl
@[simp] theorem begun_feeds : (s.begun).feeds = s.feeds := rfl
@[simp] theorem begun_coil : (s.begun).coil = s.coil := rfl
@[simp] theorem begun_orders : (s.begun).orders = s.orders := rfl
@[simp] theorem begun_nextSeq : (s.begun).nextSeq = s.nextSeq := rfl
@[simp] theorem begun_ageLeft : (s.begun).ageLeft = s.ageLeft := rfl
@[simp] theorem begun_ports : (s.begun).ports = s.ports := rfl
@[simp] theorem begun_fcr : (s.begun).fcr = s.fcr := rfl
@[simp] theorem begun_store : (s.begun).store = s.store := rfl
@[simp] theorem begun_restartAtReply : (s.begun).restartAtReply = s.restartAtReply := rfl
@[simp] theorem begun_tornCount : (s.begun).tornCount = s.tornCount := rfl
@[simp] theorem begun_work : (s.begun).work = [] := rfl
@[simp] theorem begun_pending : (s.begun).pending = s.pending := rfl

end Sys2Proof.Machine.State
end

