-- ==== Sys2Proof/Laws/Access.lean ====
section
/-! SUPPORT. Reading one unit, port or queue after a write: the written one has what was written, every other one is as it was. -/

namespace Sys2Proof.Machine

/-- Reading a vector after a write. -/
theorem get_set {α : Type} {n : Nat} (v : Vector α n) (i j : Fin n) (x : α) : (v.set i x)[j] = if i = j then x else v[j] := by
  simp only [Fin.getElem_fin, Vector.getElem_set, Fin.ext_iff]

theorem get_set_self {α : Type} {n : Nat} (v : Vector α n) (i : Fin n) (x : α) : (v.set i x)[i] = x := by rw [get_set, if_pos rfl]

theorem get_set_ne {α : Type} {n : Nat} (v : Vector α n) {i j : Fin n} (h : i ≠ j) (x : α) : (v.set i x)[j] = v[j] := by rw [get_set, if_neg h]

/-- Reading a vector that was filled with one value. -/
theorem get_replicate {α : Type} {n : Nat} (x : α) (i : Fin n) : (Vector.replicate n x)[i] = x := by simp

theorem Port.idx_inj {p q : Port} : p.idx = q.idx ↔ p = q := by cases p <;> cases q <;> decide

namespace State

variable (s : State)

theorem port_setPort (p q : Port) (v : PortState) : (s.setPort p v).port q = if p = q then v else s.port q := by
  simp only [port, setPort, get_set, Port.idx_inj]

@[simp] theorem port_setPort_self (p : Port) (v : PortState) : (s.setPort p v).port p = v := by simp [port_setPort]

theorem port_setPort_ne {p q : Port} (h : p ≠ q) (v : PortState) : (s.setPort p v).port q = s.port q := by simp [port_setPort, h]

theorem ordersOf_setOrders (p q : Port) (v : PortOrders) : (s.setOrders p v).ordersOf q = if p = q then v else s.ordersOf q := by
  simp only [ordersOf, setOrders, get_set, Port.idx_inj]

@[simp] theorem ordersOf_setOrders_self (p : Port) (v : PortOrders) : (s.setOrders p v).ordersOf p = v := by simp [ordersOf_setOrders]

theorem ordersOf_setOrders_ne {p q : Port} (h : p ≠ q) (v : PortOrders) : (s.setOrders p v).ordersOf q = s.ordersOf q := by
  simp [ordersOf_setOrders, h]

@[simp] theorem ordersOf_setPort (p q : Port) (v : PortState) : (s.setPort p v).ordersOf q = s.ordersOf q := rfl
@[simp] theorem ordersOf_latchOn (p q : Port) (k : EventKind) (src : Nat) : (s.latchOn p k src).ordersOf q = s.ordersOf q := rfl
@[simp] theorem port_setOrders (p q : Port) (v : PortOrders) : (s.setOrders p v).port q = s.port q := rfl

theorem port_latchOn (p q : Port) (k : EventKind) (src : Nat) :
    (s.latchOn p k src).port q = if p = q then (s.port p).latch k src else s.port q := s.port_setPort p q _

/-- What a raised event leaves on every port. -/
theorem port_raise (q : Port) (k : EventKind) (src : Nat) : (s.raise k src).port q = (s.port q).latch k src := by
  cases q <;> simp [raise, port_latchOn]

/-! ### Latches -/

theorem latched_latch (p : PortState) (k j : EventKind) (src i : Nat) :
    (p.latch k src).latches[j.code].getLsbD i = (p.latches[j.code].getLsbD i || decide (k.code = j.code ∧ src = i ∧ i < 16)) := by
  have key : ∀ (v : Vector Word16 21) (x y : Fin 21),
      (v.set x (v[x] ||| 1#16 <<< src))[y].getLsbD i = (v[y].getLsbD i || decide (x = y ∧ src = i ∧ i < 16)) := by
    intro v x y
    rw [get_set]
    split
    · next h =>
      subst h
      simp only [BitVec.getLsbD_or, BitVec.getLsbD_shiftLeft, BitVec.getLsbD_one, true_and]
      congr 1
      rw [Bool.eq_iff_iff]
      simp
      omega
    · next h => simp [h]
  exact key p.latches k.code j.code

theorem EventKind.code_inj {k j : EventKind} : k.code = j.code ↔ k = j := by cases k <;> cases j <;> decide

/-- A latch after one more event on a port. -/
theorem latched_latchOn (p q : Port) (k j : EventKind) (src i : Nat) :
    (s.latchOn p k src).latched q j i = (s.latched q j i || decide (p = q ∧ k = j ∧ src = i ∧ i < 16)) := by
  unfold latched
  rw [port_latchOn]
  split
  · next h => subst h; rw [latched_latch]; simp [EventKind.code_inj]
  · next h => simp [h]

/-- A latch after an event raised on every port. -/
theorem latched_raise (q : Port) (k j : EventKind) (src i : Nat) :
    (s.raise k src).latched q j i = (s.latched q j i || decide (k = j ∧ src = i ∧ i < 16)) := by
  unfold latched
  rw [port_raise, latched_latch]
  simp [EventKind.code_inj]

/-! ### The items in force -/

/-- What a picture's taking of its feeds' items does over a list of feeds. -/
theorem takeFeedItems_run (i : Fin 4) (xs : List (Fin 12)) (s : State) :
    let t := s.each xs fun t f => if t.cfg.feeds[f].sump == i || t.feeds[f].items.sump == i then t.takeItems f else t
    t = { s with feeds := t.feeds } ∧ ∀ f : Fin 12, t.feeds[f] =
      if f ∈ xs ∧ (s.cfg.feeds[f].sump = i ∨ s.feeds[f].items.sump = i) then { s.feeds[f] with items := s.cfg.feeds[f].items } else s.feeds[f] := by
  unfold each
  induction xs generalizing s with
  | nil => simp
  | cons x xs ih =>
    obtain ⟨h, hf⟩ := ih (if s.cfg.feeds[x].sump == i || s.feeds[x].items.sump == i then s.takeItems x else s)
    refine ⟨?_, fun f => ?_⟩
    · rw [List.foldl_cons, h]; split <;> rfl
    · rw [List.foldl_cons, hf f]
      by_cases hx : s.cfg.feeds[x].sump = i ∨ s.feeds[x].items.sump = i
      · have hb : (s.cfg.feeds[x].sump == i || s.feeds[x].items.sump == i) = true := by simpa using hx
        simp only [hb, if_true, takeItems_cfg, takeItems_feeds, get_set]
        by_cases e : x = f
        · subst e; rw [if_pos (⟨List.mem_cons_self, hx⟩ : x ∈ x :: xs ∧ _)]; simp only [if_true, ite_self]
        · simp [e, Ne.symm e, List.mem_cons]
      · have hb : (s.cfg.feeds[x].sump == i || s.feeds[x].items.sump == i) = false := by simpa using hx
        simp only [hb]
        by_cases e : x = f
        · subst e; simp only [Bool.false_eq_true, if_false, hx, and_false]
        · simp [Ne.symm e, List.mem_cons]

/-- What a picture's taking of its feeds' items does (R120): the items of the feeds of the sump, and nothing else. -/
theorem takeFeedItems_spec (s : State) (i : Fin 4) :
    s.takeFeedItems i = { s with feeds := (s.takeFeedItems i).feeds } ∧ ∀ f : Fin 12, (s.takeFeedItems i).feeds[f] =
      if s.cfg.feeds[f].sump = i ∨ s.feeds[f].items.sump = i then { s.feeds[f] with items := s.cfg.feeds[f].items } else s.feeds[f] := by
  have h := takeFeedItems_run i (List.finRange 12) s
  exact ⟨h.1, fun f => (h.2 f).trans (by simp only [List.mem_finRange, true_and])⟩

end State

end Sys2Proof.Machine
end

