-- ==== Sys2Proof/Laws/Moves.lean ====
section
/-! SUPPORT. What the notices of a command can do, said once: `Moves K r s` holds when `s` is reached from `r` by single writes of the kinds that the scope `K` allows.
One lemma for each operation says which scope it needs; what every write keeps, every operation then keeps. -/

namespace Sys2Proof.Machine

/-- The parts of the state that a run of writes may touch; the work list and the event latches may always change. -/
structure Scope where
  drivers : Bool := false
  pumps : Bool := false
  barriers : Bool := false
  feeds : Bool := false
  coil : Bool := false
  orders : Bool := false
  sumps : Bool := false
  rules : Bool := false
  sar : Bool := false
  dar : Bool := false
  fcr : Bool := false
  locks : Bool := false
deriving DecidableEq, Repr

/-- What the notices of a command may touch. -/
def Scope.notices : Scope := ⟨true, true, true, true, true, true, true, true, true, true, true, false⟩

/-- What an order keeps from its acceptance to its completion. -/
def Entry.ident (e : Entry) : Nat × Nat × Byte × OrderKind × Target × Bool := (e.slot, e.seq, e.tag, e.kind, e.target, e.urgent)

/-- `s` is reached from `r` by writes within a scope. -/
inductive Moves (K : Scope) (r : State) : State → Prop where
  | refl : Moves K r r
  | emit {s} (h : Moves K r s) (n : Notice) : Moves K r (s.emit n)
  | takeNotice {s} (h : Moves K r s) (i : Nat) : Moves K r (s.takeNotice i)
  | latchOn {s} (h : Moves K r s) (p : Port) (k : EventKind) (src : Nat) : Moves K r (s.latchOn p k src)
  | driverOff {s} (hd : K.drivers = true) (h : Moves K r s) (d : Fin 44) : Moves K r (s.driverOff d)
  | driverOn {s} (hd : K.drivers = true) (h : Moves K r s) (d : Fin 44) : Moves K r (s.driverOn d)
  | driverClear {s} (hd : K.drivers = true) (h : Moves K r s) (d : Fin 44) : Moves K r (s.driverClear d)
  | driverTrip {s} (hd : K.drivers = true) (h : Moves K r s) (d : Fin 44) (k : DriverFault) : Moves K r (s.driverTrip d k)
  | pump {s} (hp : K.pumps = true) (h : Moves K r s) (m : Fin 8) (v : Pump) (hv : v.locked = s.pumps[m].locked ∨ K.locks = true) :
      Moves K r (s.setPump m v)
  | barrier {s} (hb : K.barriers = true) (h : Moves K r s) (b : Fin 6) (v : Barrier) (hv : v.locked = s.barriers[b].locked ∨ K.locks = true) :
      Moves K r (s.setBarrier b v)
  | feed {s} (hf : K.feeds = true) (h : Moves K r s) (f : Fin 12) (v : Feed) : Moves K r (s.setFeed f v)
  | sump {s} (hs : K.sumps = true) (h : Moves K r s) (i : Fin 4) (v : Sump)
      (hv : v.ring.length = s.sumps[i].ring.length ∨ (s.sumps[i].ring.length ≤ 16 → v.ring.length ≤ 16)) : Moves K r (s.setSump i v)
  | rule {s} (hr : K.rules = true) (h : Moves K r s) (t : Fin 16) (v : Rule) : Moves K r (s.setRule t v)
  | sar {s} (ha : K.sar = true) (h : Moves K r s) (a : Sar) : Moves K r { s with sar := a }
  | dar {s} (hv : K.dar = true) (h : Moves K r s) (a : Dar) : Moves K r { s with dar := a }
  | coil {s} (hc : K.coil = true) (h : Moves K r s) (c : Coil) : Moves K r { s with coil := c }
  | capture {s} (hx : K.fcr = true) (h : Moves K r s) (f : FaultReport) : Moves K r (s.capture f)
  | postOne {s} (ho : K.orders = true) (h : Moves K r s) (p : Port) (e : Entry) (o : Ending) (d : Detail) : Moves K r (s.postOne p e o d)
  | mapQueue {s} (ho : K.orders = true) (h : Moves K r s) (p : Port) (g : Entry → Entry)
      (hg : ∀ x, (g x).ident = x.ident ∧ (g x).settle = x.settle) :
      Moves K r (s.setOrders p { s.ordersOf p with queue := (s.ordersOf p).queue.map g })

set_option linter.unusedTactic false
set_option linter.unreachableTactic false

namespace Moves

variable {K : Scope} {r₀ s : State}

theorem trans {r t : State} (h : Moves K r s) (g : Moves K s t) : Moves K r t := by
  induction g with
  | refl => exact h
  | emit _ n ih => exact ih.emit n
  | takeNotice _ i ih => exact ih.takeNotice i
  | latchOn _ p k src ih => exact ih.latchOn p k src
  | driverOff hd _ d ih => exact .driverOff hd ih d
  | driverOn hd _ d ih => exact .driverOn hd ih d
  | driverClear hd _ d ih => exact .driverClear hd ih d
  | driverTrip hd _ d k ih => exact .driverTrip hd ih d k
  | pump hp _ m v hv ih => exact .pump hp ih m v hv
  | barrier hb _ b v hv ih => exact .barrier hb ih b v hv
  | feed hf _ f v ih => exact .feed hf ih f v
  | sump hs _ i v hv ih => exact .sump hs ih i v hv
  | rule hr _ t v ih => exact .rule hr ih t v
  | sar ha _ a ih => exact .sar ha ih a
  | dar hv _ a ih => exact .dar hv ih a
  | coil hc _ c ih => exact .coil hc ih c
  | capture hx _ f ih => exact .capture hx ih f
  | postOne ho _ p e o d ih => exact .postOne ho ih p e o d
  | mapQueue ho _ p g hg ih => exact .mapQueue ho ih p g hg

theorem ite {c : Prop} [Decidable c] {t u : State} (ht : c → Moves K r₀ t) (hu : ¬c → Moves K r₀ u) : Moves K r₀ (if c then t else u) := by
  split
  · exact ht ‹_›
  · exact hu ‹_›

theorem each {α : Type} {xs : List α} {f : State → α → State} (h : Moves K r₀ s)
    (hf : ∀ t x, Moves K r₀ t → Moves K r₀ (f t x)) : Moves K r₀ (s.each xs f) := by
  unfold State.each
  induction xs generalizing s with
  | nil => exact h
  | cons x xs ih => exact ih (hf s x h)

theorem ringAfterSweep_length (s : State) (i : Fin 4) (h : s.sumps[i].ring.length ≤ 16) : (s.ringAfterSweep i).length ≤ 16 := by
  unfold State.ringAfterSweep push16
  repeat' split
  all_goals first | exact h | (simp only [List.length_append, List.length_tail, List.length_cons, List.length_nil]; omega)

theorem modEntry (ho : K.orders = true) (h : Moves K r₀ s) (p : Port) (n : Nat) (g : Entry → Entry)
    (hg : ∀ x, (g x).ident = x.ident ∧ (g x).settle = x.settle) : Moves K r₀ (s.modEntry p n g) := by
  refine .mapQueue ho h p _ fun x => ?_
  split
  · exact hg x
  · exact ⟨rfl, rfl⟩

theorem markQueue (ho : K.orders = true) (h : Moves K r₀ s) (p : Port) (w : List Nat) : Moves K r₀ (s.markQueue p w) := by
  refine .mapQueue ho h p _ fun x => ?_
  split <;> exact ⟨rfl, rfl⟩

theorem modBarrier (hb : K.barriers = true) (h : Moves K r₀ s) (b : Fin 6) (f : Barrier → Barrier)
    (w : ∀ r, (f r).locked = r.locked ∨ K.locks = true) : Moves K r₀ (s.modBarrier b f) := .barrier hb h b _ (w _)

theorem changeFeed' (hf : K.feeds = true) (h : Moves K r₀ s) (f : Fin 12) (v : Feed) : Moves K r₀ (s.setFeed f v) := .feed hf h f v


/-! ### Shared operations -/

theorem emitIf (h : Moves K r₀ s) (c : Bool) (n : Notice) : Moves K r₀ (s.emitIf c n) := by
  unfold State.emitIf; try extract_lets
  repeat' split
  all_goals (repeat' first | with_reducible assumption | with_reducible refine Moves.ite (fun _ => ?_) (fun _ => ?_) | with_reducible refine Moves.emit  ?_ _ | split)

theorem partnerOff (hd : K.drivers = true) (h : Moves K r₀ s) (d : Fin 44) : Moves K r₀ (s.partnerOff d) := by
  unfold State.partnerOff; try extract_lets
  repeat' split
  all_goals (repeat' first | with_reducible assumption | with_reducible refine Moves.ite (fun _ => ?_) (fun _ => ?_) | with_reducible refine Moves.driverOff hd ?_ _ | split)

theorem raise (h : Moves K r₀ s) (k : EventKind) (src : Nat) : Moves K r₀ (s.raise k src) := by
  unfold State.raise; try extract_lets
  repeat' split
  all_goals (repeat' first | with_reducible assumption | with_reducible refine Moves.ite (fun _ => ?_) (fun _ => ?_) | with_reducible refine Moves.latchOn  ?_ _ _ _ | split)

theorem report (h : Moves K r₀ s) (kind : FaultKind) (unit : Target) (sump : Fin 4) (detail : FaultDetail) : Moves K r₀ (s.report kind unit sump detail) := by
  unfold State.report; try extract_lets
  repeat' split
  all_goals (repeat' first | with_reducible assumption | with_reducible refine Moves.ite (fun _ => ?_) (fun _ => ?_) | with_reducible refine Moves.emit  ?_ _ | split)

/-! ### Water Picture Unit -/

theorem takeItems (hf : K.feeds = true) (h : Moves K r₀ s) (f : Fin 12) : Moves K r₀ (s.takeItems f) := .feed hf h f _

theorem takeFeedItems (hf : K.feeds = true) (h : Moves K r₀ s) (i : Fin 4) : Moves K r₀ (s.takeFeedItems i) :=
  h.each fun _ f ht => .ite (fun _ => ht.takeItems hf f) fun _ => ht

theorem sweepSump (hf : K.feeds = true) (hs : K.sumps = true) (h : Moves K r₀ s) (i : Fin 4) : Moves K r₀ (s.sweepSump i) := by
  unfold State.sweepSump; try extract_lets
  repeat' split
  all_goals (repeat' first | with_reducible assumption | with_reducible refine Moves.ite (fun _ => ?_) (fun _ => ?_) | exact Or.inl rfl | exact Or.inr fun _ => Nat.zero_le _ | exact Or.inr (ringAfterSweep_length _ _) | with_reducible refine Moves.sump hs ?_ _ _ ?_ | with_reducible refine Moves.takeFeedItems hf ?_ _ | with_reducible refine Moves.raise  ?_ _ _ | with_reducible refine Moves.emit  ?_ _ | split)

theorem emptySump (hs : K.sumps = true) (h : Moves K r₀ s) (i : Fin 4) : Moves K r₀ (s.emptySump i) := by
  unfold State.emptySump; try extract_lets
  repeat' split
  all_goals (repeat' first | with_reducible assumption | with_reducible refine Moves.ite (fun _ => ?_) (fun _ => ?_) | exact Or.inl rfl | exact Or.inr fun _ => Nat.zero_le _ | exact Or.inr (ringAfterSweep_length _ _) | with_reducible refine Moves.sump hs ?_ _ _ ?_ | split)

/-! ### Pump Controller -/

theorem tellSar (h : Moves K r₀ s) (m : Fin 8) (was : Bool) (old : DemandSet) : Moves K r₀ (s.tellSar m was old) := by
  unfold State.tellSar; try extract_lets
  repeat' split
  all_goals (repeat' first | with_reducible assumption | with_reducible refine Moves.ite (fun _ => ?_) (fun _ => ?_) | with_reducible refine Moves.emitIf  ?_ _ _ | with_reducible refine Moves.emit  ?_ _ | split)

theorem updatePump (hp : K.pumps = true) (h : Moves K r₀ s) (m : Fin 8) (p : Pump) (w : p.locked = s.pumps[m].locked ∨ K.locks = true) : Moves K r₀ (s.updatePump m p) := by
  exact ((h.pump hp m p w).tellSar m _ _)

theorem leaveSupply (h : Moves K r₀ s) (m : Fin 8) (was : PumpState) : Moves K r₀ (s.leaveSupply m was) := by
  unfold State.leaveSupply; try extract_lets
  repeat' split
  all_goals (repeat' first | with_reducible assumption | with_reducible refine Moves.ite (fun _ => ?_) (fun _ => ?_) | with_reducible refine Moves.emitIf  ?_ _ _ | with_reducible refine Moves.emit  ?_ _ | split)

theorem restPump (hd : K.drivers = true) (hp : K.pumps = true) (h : Moves K r₀ s) (m : Fin 8) : Moves K r₀ (s.restPump m) := by
  unfold State.restPump; try extract_lets
  repeat' split
  all_goals (repeat' first | with_reducible assumption | with_reducible refine Moves.ite (fun _ => ?_) (fun _ => ?_) | exact (Or.inl rfl) | with_reducible refine Moves.driverOff hd ?_ _ | with_reducible refine Moves.updatePump hp ?_ _ _ ?_ | with_reducible refine Moves.leaveSupply  ?_ _ _ | split)

theorem actOnDemand (hd : K.drivers = true) (hp : K.pumps = true) (h : Moves K r₀ s) (m : Fin 8) : Moves K r₀ (s.actOnDemand m) := by
  unfold State.actOnDemand; try extract_lets
  repeat' split
  all_goals (repeat' first | with_reducible assumption | with_reducible refine Moves.ite (fun _ => ?_) (fun _ => ?_) | with_reducible refine Moves.restPump hd hp ?_ _ | split)

theorem demandPump (hd : K.drivers = true) (hp : K.pumps = true) (h : Moves K r₀ s) (m : Fin 8) (d : DemandSet) (ov : Bool) : Moves K r₀ (s.demandPump m d ov) := by
  unfold State.demandPump; try extract_lets
  repeat' split
  all_goals (repeat' first | with_reducible assumption | with_reducible refine Moves.ite (fun _ => ?_) (fun _ => ?_) | exact (Or.inl rfl) | with_reducible refine Moves.updatePump hp ?_ _ _ ?_ | with_reducible refine Moves.actOnDemand hd hp ?_ _ | split)

theorem portDemandPump (hd : K.drivers = true) (hp : K.pumps = true) (h : Moves K r₀ s) (m : Fin 8) (p : Port) (v : Bool) : Moves K r₀ (s.portDemandPump m p v) := by
  unfold State.portDemandPump; try extract_lets
  repeat' split
  all_goals (repeat' first | with_reducible assumption | with_reducible refine Moves.ite (fun _ => ?_) (fun _ => ?_) | with_reducible refine Moves.demandPump hd hp ?_ _ _ _ | split)

theorem placeAuto (hd : K.drivers = true) (hp : K.pumps = true) (h : Moves K r₀ s) (m : Fin 8) (ov : Bool) : Moves K r₀ (s.placeAuto m ov) := by
  unfold State.placeAuto; try extract_lets
  repeat' split
  all_goals (repeat' first | with_reducible assumption | with_reducible refine Moves.ite (fun _ => ?_) (fun _ => ?_) | with_reducible refine Moves.demandPump hd hp ?_ _ _ _ | split)

theorem removeAuto (hd : K.drivers = true) (hp : K.pumps = true) (h : Moves K r₀ s) (m : Fin 8) : Moves K r₀ (s.removeAuto m) := by
  unfold State.removeAuto; try extract_lets
  repeat' split
  all_goals (repeat' first | with_reducible assumption | with_reducible refine Moves.ite (fun _ => ?_) (fun _ => ?_) | with_reducible refine Moves.demandPump hd hp ?_ _ _ _ | split)

theorem clearOverride (hd : K.drivers = true) (hp : K.pumps = true) (h : Moves K r₀ s) (m : Fin 8) : Moves K r₀ (s.clearOverride m) := by
  unfold State.clearOverride; try extract_lets
  repeat' split
  all_goals (repeat' first | with_reducible assumption | with_reducible refine Moves.ite (fun _ => ?_) (fun _ => ?_) | with_reducible refine Moves.demandPump hd hp ?_ _ _ _ | split)

theorem failPump (hd : K.drivers = true) (hp : K.pumps = true) (h : Moves K r₀ s) (m : Fin 8) (kind : FaultKind) (detail : FaultDetail) : Moves K r₀ (s.failPump m kind detail) := by
  unfold State.failPump; try extract_lets
  repeat' split
  all_goals (repeat' first | with_reducible assumption | with_reducible refine Moves.ite (fun _ => ?_) (fun _ => ?_) | exact (Or.inl rfl) | with_reducible refine Moves.driverOff hd ?_ _ | with_reducible refine Moves.updatePump hp ?_ _ _ ?_ | with_reducible refine Moves.leaveSupply  ?_ _ _ | with_reducible refine Moves.raise  ?_ _ _ | with_reducible refine Moves.report  ?_ _ _ _ _ | with_reducible refine Moves.emit  ?_ _ | split)

theorem takeBudget (hp : K.pumps = true) (h : Moves K r₀ s) (m : Fin 8) : Moves K r₀ (s.takeBudget m) := by
  unfold State.takeBudget; try extract_lets
  repeat' split
  all_goals (repeat' first | with_reducible assumption | with_reducible refine Moves.ite (fun _ => ?_) (fun _ => ?_) | exact (Or.inl rfl) | with_reducible refine Moves.pump hp ?_ _ _ ?_ | with_reducible refine Moves.raise  ?_ _ _ | with_reducible refine Moves.report  ?_ _ _ _ _ | split)

theorem startPump (hd : K.drivers = true) (hp : K.pumps = true) (h : Moves K r₀ s) (m : Fin 8) : Moves K r₀ (s.startPump m) := by
  unfold State.startPump; try extract_lets
  repeat' split
  all_goals (repeat' first | with_reducible assumption | with_reducible refine Moves.ite (fun _ => ?_) (fun _ => ?_) | exact (Or.inl rfl) | with_reducible refine Moves.takeBudget hp ?_ _ | with_reducible refine Moves.pump hp ?_ _ _ ?_ | with_reducible refine Moves.tellSar  ?_ _ _ _ | with_reducible refine Moves.driverOn hd ?_ _ | with_reducible refine Moves.emit  ?_ _ | with_reducible refine Moves.failPump hd hp ?_ _ _ _ | split)

theorem grantPump (hd : K.drivers = true) (hp : K.pumps = true) (h : Moves K r₀ s) (m : Fin 8) : Moves K r₀ (s.grantPump m) := by
  unfold State.grantPump; try extract_lets
  repeat' split
  all_goals (repeat' first | with_reducible assumption | with_reducible refine Moves.ite (fun _ => ?_) (fun _ => ?_) | with_reducible refine Moves.startPump hd hp ?_ _ | with_reducible refine Moves.emit  ?_ _ | split)

theorem pumpFlow (hp : K.pumps = true) (h : Moves K r₀ s) (m : Fin 8) (made : Bool) : Moves K r₀ (s.pumpFlow m made) := by
  unfold State.pumpFlow; try extract_lets
  repeat' split
  all_goals (repeat' first | with_reducible assumption | with_reducible refine Moves.ite (fun _ => ?_) (fun _ => ?_) | exact (Or.inl rfl) | with_reducible refine Moves.updatePump hp ?_ _ _ ?_ | with_reducible refine Moves.emit  ?_ _ | with_reducible refine Moves.pump hp ?_ _ _ ?_ | split)

theorem pumpOverload (hd : K.drivers = true) (hp : K.pumps = true) (h : Moves K r₀ s) (m : Fin 8) (made : Bool) : Moves K r₀ (s.pumpOverload m made) := by
  unfold State.pumpOverload; try extract_lets
  repeat' split
  all_goals (repeat' first | with_reducible assumption | with_reducible refine Moves.ite (fun _ => ?_) (fun _ => ?_) | with_reducible refine Moves.failPump hd hp ?_ _ _ _ | split)

theorem pumpDriverFault (hd : K.drivers = true) (hp : K.pumps = true) (h : Moves K r₀ s) (m : Fin 8) (d : Fin 44) (k : DriverFault) : Moves K r₀ (s.pumpDriverFault m d k) := by
  unfold State.pumpDriverFault; try extract_lets
  repeat' split
  all_goals (repeat' first | with_reducible assumption | with_reducible refine Moves.ite (fun _ => ?_) (fun _ => ?_) | with_reducible refine Moves.failPump hd hp ?_ _ _ _ | split)

theorem provingExpires (hd : K.drivers = true) (hp : K.pumps = true) (h : Moves K r₀ s) (m : Fin 8) : Moves K r₀ (s.provingExpires m) := by
  unfold State.provingExpires; try extract_lets
  repeat' split
  all_goals (repeat' first | with_reducible assumption | with_reducible refine Moves.ite (fun _ => ?_) (fun _ => ?_) | with_reducible refine Moves.failPump hd hp ?_ _ _ _ | split)

theorem minRunExpires (hd : K.drivers = true) (hp : K.pumps = true) (h : Moves K r₀ s) (m : Fin 8) : Moves K r₀ (s.minRunExpires m) := by
  unfold State.minRunExpires; try extract_lets
  repeat' split
  all_goals (repeat' first | with_reducible assumption | with_reducible refine Moves.ite (fun _ => ?_) (fun _ => ?_) | exact (Or.inl rfl) | with_reducible refine Moves.pump hp ?_ _ _ ?_ | with_reducible refine Moves.actOnDemand hd hp ?_ _ | split)

theorem noFlowExpires (hd : K.drivers = true) (hp : K.pumps = true) (h : Moves K r₀ s) (m : Fin 8) : Moves K r₀ (s.noFlowExpires m) := by
  unfold State.noFlowExpires; try extract_lets
  repeat' split
  all_goals (repeat' first | with_reducible assumption | with_reducible refine Moves.ite (fun _ => ?_) (fun _ => ?_) | with_reducible refine Moves.failPump hd hp ?_ _ _ _ | split)

theorem minOffExpires (hp : K.pumps = true) (h : Moves K r₀ s) (m : Fin 8) : Moves K r₀ (s.minOffExpires m) := by
  unfold State.minOffExpires; try extract_lets
  repeat' split
  all_goals (repeat' first | with_reducible assumption | with_reducible refine Moves.ite (fun _ => ?_) (fun _ => ?_) | exact (Or.inl rfl) | with_reducible refine Moves.updatePump hp ?_ _ _ ?_ | split)

theorem reloadPump (hp : K.pumps = true) (h : Moves K r₀ s) (m : Fin 8) : Moves K r₀ (s.reloadPump m) := by
  unfold State.reloadPump; try extract_lets
  repeat' split
  all_goals (repeat' first | with_reducible assumption | with_reducible refine Moves.ite (fun _ => ?_) (fun _ => ?_) | exact (Or.inl rfl) | with_reducible refine Moves.updatePump hp ?_ _ _ ?_ | split)

theorem restFrom (hp : K.pumps = true) (h : Moves K r₀ s) (m : Fin 8) (p : Pump) (w : p.locked = s.pumps[m].locked ∨ K.locks = true) : Moves K r₀ (s.restFrom m p) := by
  exact (h.updatePump hp m _ w)

theorem clearPump (hd : K.drivers = true) (hp : K.pumps = true) (h : Moves K r₀ s) (m : Fin 8) : Moves K r₀ (s.clearPump m) := by
  unfold State.clearPump; try extract_lets
  repeat' split
  all_goals (repeat' first | with_reducible assumption | with_reducible refine Moves.ite (fun _ => ?_) (fun _ => ?_) | exact (Or.inl rfl) | with_reducible refine Moves.driverClear hd ?_ _ | with_reducible refine Moves.pump hp ?_ _ _ ?_ | with_reducible refine Moves.raise  ?_ _ _ | with_reducible refine Moves.report  ?_ _ _ _ _ | with_reducible refine Moves.restFrom hp ?_ _ _ ?_ | split)

theorem lockPump (hd : K.drivers = true) (hp : K.pumps = true) (hl : K.locks = true) (h : Moves K r₀ s) (m : Fin 8) : Moves K r₀ (s.lockPump m) := by
  unfold State.lockPump; try extract_lets
  repeat' split
  all_goals (repeat' first | with_reducible assumption | with_reducible refine Moves.ite (fun _ => ?_) (fun _ => ?_) | exact (Or.inr hl) | with_reducible refine Moves.updatePump hp ?_ _ _ ?_ | with_reducible refine Moves.emit  ?_ _ | with_reducible refine Moves.driverOff hd ?_ _ | with_reducible refine Moves.leaveSupply  ?_ _ _ | split)

theorem unlockPump (hd : K.drivers = true) (hp : K.pumps = true) (hl : K.locks = true) (h : Moves K r₀ s) (m : Fin 8) : Moves K r₀ (s.unlockPump m) := by
  unfold State.unlockPump; try extract_lets
  repeat' split
  all_goals (repeat' first | with_reducible assumption | with_reducible refine Moves.ite (fun _ => ?_) (fun _ => ?_) | exact (Or.inr hl) | with_reducible refine Moves.restFrom hp ?_ _ _ ?_ | with_reducible refine Moves.emit  ?_ _ | with_reducible refine Moves.failPump hd hp ?_ _ _ _ | with_reducible refine Moves.updatePump hp ?_ _ _ ?_ | with_reducible refine Moves.actOnDemand hd hp ?_ _ | split)

theorem disablePump (hd : K.drivers = true) (hp : K.pumps = true) (h : Moves K r₀ s) (m : Fin 8) (was : Bool) : Moves K r₀ (s.disablePump m was) := by
  unfold State.disablePump; try extract_lets
  repeat' split
  all_goals (repeat' first | with_reducible assumption | with_reducible refine Moves.ite (fun _ => ?_) (fun _ => ?_) | exact (Or.inl rfl) | with_reducible refine Moves.driverOff hd ?_ _ | with_reducible refine Moves.pump hp ?_ _ _ ?_ | with_reducible refine Moves.tellSar  ?_ _ _ _ | with_reducible refine Moves.emitIf  ?_ _ _ | with_reducible refine Moves.emit  ?_ _ | with_reducible refine Moves.leaveSupply  ?_ _ _ | split)

theorem enablePump (hp : K.pumps = true) (h : Moves K r₀ s) (m : Fin 8) : Moves K r₀ (s.enablePump m) := by
  unfold State.enablePump; try extract_lets
  repeat' split
  all_goals (repeat' first | with_reducible assumption | with_reducible refine Moves.ite (fun _ => ?_) (fun _ => ?_) | exact (Or.inl rfl) | with_reducible refine Moves.restFrom hp ?_ _ _ ?_ | split)

theorem capBudget (hp : K.pumps = true) (h : Moves K r₀ s) (m : Fin 8) (starts : Nat) : Moves K r₀ (s.capBudget m starts) := by
  unfold State.capBudget; try extract_lets
  repeat' split
  all_goals (repeat' first | with_reducible assumption | with_reducible refine Moves.ite (fun _ => ?_) (fun _ => ?_) | exact (Or.inl rfl) | with_reducible refine Moves.updatePump hp ?_ _ _ ?_ | split)

/-! ### Supply Arbiter -/

theorem issueGrant (ha : K.sar = true) (h : Moves K r₀ s) (m : Fin 8) (protective : Bool) : Moves K r₀ (s.issueGrant m protective) := by
  unfold State.issueGrant; try extract_lets
  repeat' split
  all_goals (repeat' first | with_reducible assumption | with_reducible refine Moves.ite (fun _ => ?_) (fun _ => ?_) | with_reducible refine Moves.emit  ?_ _ | with_reducible refine Moves.sar ha ?_ _ | split)

theorem sarDecide (ha : K.sar = true) (h : Moves K r₀ s) : Moves K r₀ (s.sarDecide) := by
  unfold State.sarDecide; try extract_lets
  repeat' split
  all_goals (repeat' first | with_reducible assumption | with_reducible refine Moves.ite (fun _ => ?_) (fun _ => ?_) | with_reducible refine Moves.issueGrant ha ?_ _ _ | split)

theorem sarPending (ha : K.sar = true) (h : Moves K r₀ s) (m : Fin 8) (d : DemandSet) : Moves K r₀ (s.sarPending m d) := by
  unfold State.sarPending; try extract_lets
  repeat' split
  all_goals (repeat' first | with_reducible assumption | with_reducible refine Moves.ite (fun _ => ?_) (fun _ => ?_) | with_reducible refine Moves.sarDecide ha ?_ | with_reducible refine Moves.sar ha ?_ _ | split)

theorem sarActing (ha : K.sar = true) (h : Moves K r₀ s) (m : Fin 8) (d : DemandSet) : Moves K r₀ (s.sarActing m d) := by
  unfold State.sarActing; try extract_lets
  repeat' split
  all_goals (repeat' first | with_reducible assumption | with_reducible refine Moves.ite (fun _ => ?_) (fun _ => ?_) | with_reducible refine Moves.sar ha ?_ _ | split)

theorem sarNotPending (ha : K.sar = true) (h : Moves K r₀ s) (m : Fin 8) : Moves K r₀ (s.sarNotPending m) := by
  unfold State.sarNotPending; try extract_lets
  repeat' split
  all_goals (repeat' first | with_reducible assumption | with_reducible refine Moves.ite (fun _ => ?_) (fun _ => ?_) | with_reducible refine Moves.sar ha ?_ _ | split)

theorem sarFreed (ha : K.sar = true) (h : Moves K r₀ s) : Moves K r₀ (s.sarFreed) := by
  unfold State.sarFreed; try extract_lets
  repeat' split
  all_goals (repeat' first | with_reducible assumption | with_reducible refine Moves.ite (fun _ => ?_) (fun _ => ?_) | with_reducible refine Moves.sarDecide ha ?_ | with_reducible refine Moves.sar ha ?_ _ | split)

theorem sarTaken (ha : K.sar = true) (h : Moves K r₀ s) : Moves K r₀ (s.sarTaken) := by
  unfold State.sarTaken; try extract_lets
  repeat' split
  all_goals (repeat' first | with_reducible assumption | with_reducible refine Moves.ite (fun _ => ?_) (fun _ => ?_) | with_reducible refine Moves.sarDecide ha ?_ | with_reducible refine Moves.sar ha ?_ _ | split)

theorem sarHandedBack (ha : K.sar = true) (h : Moves K r₀ s) : Moves K r₀ (s.sarHandedBack) := by
  unfold State.sarHandedBack; try extract_lets
  repeat' split
  all_goals (repeat' first | with_reducible assumption | with_reducible refine Moves.ite (fun _ => ?_) (fun _ => ?_) | with_reducible refine Moves.sarDecide ha ?_ | with_reducible refine Moves.sar ha ?_ _ | split)

/-! ### Barrier Controller -/

theorem drivesOff (hd : K.drivers = true) (h : Moves K r₀ s) (b : Fin 6) : Moves K r₀ (s.drivesOff b) := by
  unfold State.drivesOff; try extract_lets
  repeat' split
  all_goals (repeat' first | with_reducible assumption | with_reducible refine Moves.ite (fun _ => ?_) (fun _ => ?_) | with_reducible refine Moves.driverOff hd ?_ _ | split)

theorem enterClosed (hb : K.barriers = true) (h : Moves K r₀ s) (b : Fin 6) : Moves K r₀ (s.enterClosed b) := by
  unfold State.enterClosed; try extract_lets
  repeat' split
  all_goals (repeat' first | with_reducible assumption | with_reducible refine Moves.ite (fun _ => ?_) (fun _ => ?_) | exact fun _ => Or.inl rfl | exact fun r => Or.inl (by dsimp only; split <;> (try split) <;> rfl) | with_reducible refine Moves.modBarrier hb ?_ _ _ ?_ | with_reducible refine Moves.emit  ?_ _ | split)

theorem enterOpen (hb : K.barriers = true) (h : Moves K r₀ s) (b : Fin 6) : Moves K r₀ (s.enterOpen b) := by
  unfold State.enterOpen; try extract_lets
  repeat' split
  all_goals (repeat' first | with_reducible assumption | with_reducible refine Moves.ite (fun _ => ?_) (fun _ => ?_) | exact fun _ => Or.inl rfl | exact fun r => Or.inl (by dsimp only; split <;> (try split) <;> rfl) | with_reducible refine Moves.modBarrier hb ?_ _ _ ?_ | with_reducible refine Moves.emit  ?_ _ | split)

theorem disturbHome (hb : K.barriers = true) (h : Moves K r₀ s) (b : Fin 6) : Moves K r₀ (s.disturbHome b) := by
  unfold State.disturbHome; try extract_lets
  repeat' split
  all_goals (repeat' first | with_reducible assumption | with_reducible refine Moves.ite (fun _ => ?_) (fun _ => ?_) | exact (Or.inl rfl) | with_reducible refine Moves.barrier hb ?_ _ _ ?_ | with_reducible refine Moves.emit  ?_ _ | split)

theorem lockedAtLimit (hb : K.barriers = true) (h : Moves K r₀ s) (b : Fin 6) : Moves K r₀ (s.lockedAtLimit b) := by
  unfold State.lockedAtLimit; try extract_lets
  repeat' split
  all_goals (repeat' first | with_reducible assumption | with_reducible refine Moves.ite (fun _ => ?_) (fun _ => ?_) | with_reducible refine Moves.enterClosed hb ?_ _ | with_reducible refine Moves.enterOpen hb ?_ _ | split)

theorem tellDar (h : Moves K r₀ s) (b : Fin 6) (was : Option DriveKind) : Moves K r₀ (s.tellDar b was) := by
  unfold State.tellDar; try extract_lets
  repeat' split
  all_goals (repeat' first | with_reducible assumption | with_reducible refine Moves.ite (fun _ => ?_) (fun _ => ?_) | with_reducible refine Moves.emitIf  ?_ _ _ | with_reducible refine Moves.emit  ?_ _ | split)

theorem tellWantLost (h : Moves K r₀ s) (b : Fin 6) (was : Want) : Moves K r₀ (s.tellWantLost b was) := by
  unfold State.tellWantLost; try extract_lets
  repeat' split
  all_goals (repeat' first | with_reducible assumption | with_reducible refine Moves.ite (fun _ => ?_) (fun _ => ?_) | with_reducible refine Moves.emitIf  ?_ _ _ | split)

theorem takeWants (hb : K.barriers = true) (h : Moves K r₀ s) (b : Fin 6) (t : Told) : Moves K r₀ (s.takeWants b t) := by
  unfold State.takeWants; try extract_lets
  repeat' split
  all_goals (repeat' first | with_reducible assumption | with_reducible refine Moves.ite (fun _ => ?_) (fun _ => ?_) | with_reducible refine Moves.disturbHome hb ?_ _ | with_reducible refine Moves.lockedAtLimit hb ?_ _ | with_reducible refine Moves.tellDar  ?_ _ _ | with_reducible refine Moves.tellWantLost  ?_ _ _ | split)

theorem updateBarrier (hb : K.barriers = true) (h : Moves K r₀ s) (b : Fin 6) (f : Barrier → Barrier)
    (w : ∀ r, (f r).locked = r.locked ∨ K.locks = true) : Moves K r₀ (s.updateBarrier b f) := (h.modBarrier hb b f w).takeWants hb b _

theorem portDemandBarrier (hb : K.barriers = true) (h : Moves K r₀ s) (b : Fin 6) (p : Port) (v : Bool) : Moves K r₀ (s.portDemandBarrier b p v) := by
  unfold State.portDemandBarrier; try extract_lets
  repeat' split
  all_goals (repeat' first | with_reducible assumption | with_reducible refine Moves.ite (fun _ => ?_) (fun _ => ?_) | exact fun _ => Or.inl rfl | exact fun r => Or.inl (by dsimp only; split <;> (try split) <;> rfl) | with_reducible refine Moves.updateBarrier hb ?_ _ _ ?_ | split)

theorem autoDemandBarrier (hb : K.barriers = true) (h : Moves K r₀ s) (b : Fin 6) (v : Bool) : Moves K r₀ (s.autoDemandBarrier b v) := by
  unfold State.autoDemandBarrier; try extract_lets
  repeat' split
  all_goals (repeat' first | with_reducible assumption | with_reducible refine Moves.ite (fun _ => ?_) (fun _ => ?_) | exact fun _ => Or.inl rfl | exact fun r => Or.inl (by dsimp only; split <;> (try split) <;> rfl) | with_reducible refine Moves.updateBarrier hb ?_ _ _ ?_ | split)

theorem reportBarrier (h : Moves K r₀ s) (b : Fin 6) (kind : FaultKind) (detail : FaultDetail) : Moves K r₀ (s.reportBarrier b kind detail) := by
  unfold State.reportBarrier; try extract_lets
  repeat' split
  all_goals (repeat' first | with_reducible assumption | with_reducible refine Moves.ite (fun _ => ?_) (fun _ => ?_) | with_reducible refine Moves.raise  ?_ _ _ | with_reducible refine Moves.report  ?_ _ _ _ _ | split)

theorem faultBarrier (hd : K.drivers = true) (hb : K.barriers = true) (h : Moves K r₀ s) (b : Fin 6) (kind : FaultKind) (detail : FaultDetail) : Moves K r₀ (s.faultBarrier b kind detail) := by
  unfold State.faultBarrier; try extract_lets
  repeat' split
  all_goals (repeat' first | with_reducible assumption | with_reducible refine Moves.ite (fun _ => ?_) (fun _ => ?_) | exact (Or.inl rfl) | with_reducible refine Moves.drivesOff hd ?_ _ | with_reducible refine Moves.barrier hb ?_ _ _ ?_ | with_reducible refine Moves.emit  ?_ _ | with_reducible refine Moves.tellDar  ?_ _ _ | with_reducible refine Moves.reportBarrier  ?_ _ _ _ | split)

theorem faultBothLimits (hd : K.drivers = true) (hb : K.barriers = true) (h : Moves K r₀ s) (b : Fin 6) : Moves K r₀ (s.faultBothLimits b) := by
  unfold State.faultBothLimits; try extract_lets
  repeat' split
  all_goals (repeat' first | with_reducible assumption | with_reducible refine Moves.ite (fun _ => ?_) (fun _ => ?_) | with_reducible refine Moves.faultBarrier hd hb ?_ _ _ _ | split)

theorem startTravel (hd : K.drivers = true) (hb : K.barriers = true) (h : Moves K r₀ s) (b : Fin 6) (st : BarrierState) : Moves K r₀ (s.startTravel b st) := by
  unfold State.startTravel; try extract_lets
  repeat' split
  all_goals (repeat' first | with_reducible assumption | with_reducible refine Moves.ite (fun _ => ?_) (fun _ => ?_) | exact fun _ => Or.inl rfl | exact fun r => Or.inl (by dsimp only; split <;> (try split) <;> rfl) | with_reducible refine Moves.modBarrier hb ?_ _ _ ?_ | with_reducible refine Moves.tellDar  ?_ _ _ | with_reducible refine Moves.emit  ?_ _ | with_reducible refine Moves.driverOn hd ?_ _ | with_reducible refine Moves.faultBarrier hd hb ?_ _ _ _ | split)

theorem grantBarrier (hd : K.drivers = true) (hb : K.barriers = true) (h : Moves K r₀ s) (b : Fin 6) : Moves K r₀ (s.grantBarrier b) := by
  unfold State.grantBarrier; try extract_lets
  repeat' split
  all_goals (repeat' first | with_reducible assumption | with_reducible refine Moves.ite (fun _ => ?_) (fun _ => ?_) | with_reducible refine Moves.startTravel hd hb ?_ _ _ | with_reducible refine Moves.emit  ?_ _ | split)

theorem nextIncrement (hb : K.barriers = true) (h : Moves K r₀ s) (b : Fin 6) (st : BarrierState) : Moves K r₀ (s.nextIncrement b st) := by
  unfold State.nextIncrement; try extract_lets
  repeat' split
  all_goals (repeat' first | with_reducible assumption | with_reducible refine Moves.ite (fun _ => ?_) (fun _ => ?_) | exact fun _ => Or.inl rfl | exact fun r => Or.inl (by dsimp only; split <;> (try split) <;> rfl) | with_reducible refine Moves.modBarrier hb ?_ _ _ ?_ | split)

theorem turnBarrier (hd : K.drivers = true) (hb : K.barriers = true) (h : Moves K r₀ s) (b : Fin 6) (st : BarrierState) : Moves K r₀ (s.turnBarrier b st) := by
  unfold State.turnBarrier; try extract_lets
  repeat' split
  all_goals (repeat' first | with_reducible assumption | with_reducible refine Moves.ite (fun _ => ?_) (fun _ => ?_) | exact fun _ => Or.inl rfl | exact fun r => Or.inl (by dsimp only; split <;> (try split) <;> rfl) | with_reducible refine Moves.modBarrier hb ?_ _ _ ?_ | with_reducible refine Moves.driverOn hd ?_ _ | split)

theorem turnToClosing (hd : K.drivers = true) (hb : K.barriers = true) (h : Moves K r₀ s) (b : Fin 6) : Moves K r₀ (s.turnToClosing b) := by
  unfold State.turnToClosing; try extract_lets
  repeat' split
  all_goals (repeat' first | with_reducible assumption | with_reducible refine Moves.ite (fun _ => ?_) (fun _ => ?_) | exact fun _ => Or.inl rfl | exact fun r => Or.inl (by dsimp only; split <;> (try split) <;> rfl) | with_reducible refine Moves.turnBarrier hd hb ?_ _ _ | with_reducible refine Moves.modBarrier hb ?_ _ _ ?_ | with_reducible refine Moves.emit  ?_ _ | split)

theorem haltBarrier (hd : K.drivers = true) (hb : K.barriers = true) (h : Moves K r₀ s) (b : Fin 6) : Moves K r₀ (s.haltBarrier b) := by
  unfold State.haltBarrier; try extract_lets
  repeat' split
  all_goals (repeat' first | with_reducible assumption | with_reducible refine Moves.ite (fun _ => ?_) (fun _ => ?_) | exact (Or.inl rfl) | with_reducible refine Moves.drivesOff hd ?_ _ | with_reducible refine Moves.barrier hb ?_ _ _ ?_ | with_reducible refine Moves.emit  ?_ _ | with_reducible refine Moves.emitIf  ?_ _ _ | split)

theorem turnOrHalt (hd : K.drivers = true) (hb : K.barriers = true) (h : Moves K r₀ s) (b : Fin 6) : Moves K r₀ (s.turnOrHalt b) := by
  unfold State.turnOrHalt; try extract_lets
  repeat' split
  all_goals (repeat' first | with_reducible assumption | with_reducible refine Moves.ite (fun _ => ?_) (fun _ => ?_) | with_reducible refine Moves.nextIncrement hb ?_ _ _ | with_reducible refine Moves.turnBarrier hd hb ?_ _ _ | with_reducible refine Moves.turnToClosing hd hb ?_ _ | with_reducible refine Moves.haltBarrier hd hb ?_ _ | split)

theorem incrementExpires (hd : K.drivers = true) (hb : K.barriers = true) (h : Moves K r₀ s) (b : Fin 6) : Moves K r₀ (s.incrementExpires b) := by
  unfold State.incrementExpires; try extract_lets
  repeat' split
  all_goals (repeat' first | with_reducible assumption | with_reducible refine Moves.ite (fun _ => ?_) (fun _ => ?_) | exact (Or.inl rfl) | with_reducible refine Moves.barrier hb ?_ _ _ ?_ | with_reducible refine Moves.faultBarrier hd hb ?_ _ _ _ | with_reducible refine Moves.turnOrHalt hd hb ?_ _ | with_reducible refine Moves.takeWants hb ?_ _ _ | split)

theorem arriveClosed (hd : K.drivers = true) (hb : K.barriers = true) (h : Moves K r₀ s) (b : Fin 6) : Moves K r₀ (s.arriveClosed b) := by
  unfold State.arriveClosed; try extract_lets
  repeat' split
  all_goals (repeat' first | with_reducible assumption | with_reducible refine Moves.ite (fun _ => ?_) (fun _ => ?_) | exact fun _ => Or.inl rfl | exact fun r => Or.inl (by dsimp only; split <;> (try split) <;> rfl) | with_reducible refine Moves.driverOff hd ?_ _ | with_reducible refine Moves.modBarrier hb ?_ _ _ ?_ | with_reducible refine Moves.emit  ?_ _ | with_reducible refine Moves.enterClosed hb ?_ _ | with_reducible refine Moves.takeWants hb ?_ _ _ | split)

theorem arriveOpen (hd : K.drivers = true) (hb : K.barriers = true) (h : Moves K r₀ s) (b : Fin 6) : Moves K r₀ (s.arriveOpen b) := by
  unfold State.arriveOpen; try extract_lets
  repeat' split
  all_goals (repeat' first | with_reducible assumption | with_reducible refine Moves.ite (fun _ => ?_) (fun _ => ?_) | exact (Or.inl rfl) | exact fun _ => Or.inl rfl | exact fun r => Or.inl (by dsimp only; split <;> (try split) <;> rfl) | with_reducible refine Moves.barrier hb ?_ _ _ ?_ | with_reducible refine Moves.turnToClosing hd hb ?_ _ | with_reducible refine Moves.takeWants hb ?_ _ _ | with_reducible refine Moves.driverOff hd ?_ _ | with_reducible refine Moves.modBarrier hb ?_ _ _ ?_ | with_reducible refine Moves.emit  ?_ _ | with_reducible refine Moves.enterOpen hb ?_ _ | split)

theorem openLimitChange (hd : K.drivers = true) (hb : K.barriers = true) (h : Moves K r₀ s) (b : Fin 6) (made : Bool) : Moves K r₀ (s.openLimitChange b made) := by
  unfold State.openLimitChange; try extract_lets
  repeat' split
  all_goals (repeat' first | with_reducible assumption | with_reducible refine Moves.ite (fun _ => ?_) (fun _ => ?_) | exact fun _ => Or.inl rfl | exact fun r => Or.inl (by dsimp only; split <;> (try split) <;> rfl) | with_reducible refine Moves.arriveOpen hd hb ?_ _ | with_reducible refine Moves.updateBarrier hb ?_ _ _ ?_ | with_reducible refine Moves.faultBothLimits hd hb ?_ _ | with_reducible refine Moves.enterOpen hb ?_ _ | with_reducible refine Moves.takeWants hb ?_ _ _ | split)

theorem closedLimitChange (hd : K.drivers = true) (hb : K.barriers = true) (h : Moves K r₀ s) (b : Fin 6) (made : Bool) : Moves K r₀ (s.closedLimitChange b made) := by
  unfold State.closedLimitChange; try extract_lets
  repeat' split
  all_goals (repeat' first | with_reducible assumption | with_reducible refine Moves.ite (fun _ => ?_) (fun _ => ?_) | exact fun _ => Or.inl rfl | exact fun r => Or.inl (by dsimp only; split <;> (try split) <;> rfl) | with_reducible refine Moves.arriveClosed hd hb ?_ _ | with_reducible refine Moves.updateBarrier hb ?_ _ _ ?_ | with_reducible refine Moves.faultBothLimits hd hb ?_ _ | with_reducible refine Moves.enterClosed hb ?_ _ | with_reducible refine Moves.takeWants hb ?_ _ _ | split)

theorem sealChange (hb : K.barriers = true) (h : Moves K r₀ s) (b : Fin 6) (made : Bool) : Moves K r₀ (s.sealChange b made) := by
  unfold State.sealChange; try extract_lets
  repeat' split
  all_goals (repeat' first | with_reducible assumption | with_reducible refine Moves.ite (fun _ => ?_) (fun _ => ?_) | exact fun _ => Or.inl rfl | exact fun r => Or.inl (by dsimp only; split <;> (try split) <;> rfl) | with_reducible refine Moves.updateBarrier hb ?_ _ _ ?_ | with_reducible refine Moves.emit  ?_ _ | with_reducible refine Moves.raise  ?_ _ _ | split)

theorem sealExpires (hb : K.barriers = true) (h : Moves K r₀ s) (b : Fin 6) : Moves K r₀ (s.sealExpires b) := by
  unfold State.sealExpires; try extract_lets
  repeat' split
  all_goals (repeat' first | with_reducible assumption | with_reducible refine Moves.ite (fun _ => ?_) (fun _ => ?_) | exact (Or.inl rfl) | with_reducible refine Moves.barrier hb ?_ _ _ ?_ | with_reducible refine Moves.reportBarrier  ?_ _ _ _ | with_reducible refine Moves.emit  ?_ _ | split)

theorem driveOverload (hd : K.drivers = true) (hb : K.barriers = true) (h : Moves K r₀ s) (b : Fin 6) (made : Bool) : Moves K r₀ (s.driveOverload b made) := by
  unfold State.driveOverload; try extract_lets
  repeat' split
  all_goals (repeat' first | with_reducible assumption | with_reducible refine Moves.ite (fun _ => ?_) (fun _ => ?_) | with_reducible refine Moves.faultBarrier hd hb ?_ _ _ _ | split)

theorem barrierDriverFault (hd : K.drivers = true) (hb : K.barriers = true) (h : Moves K r₀ s) (b : Fin 6) (d : Fin 44) (k : DriverFault) : Moves K r₀ (s.barrierDriverFault b d k) := by
  unfold State.barrierDriverFault; try extract_lets
  repeat' split
  all_goals (repeat' first | with_reducible assumption | with_reducible refine Moves.ite (fun _ => ?_) (fun _ => ?_) | with_reducible refine Moves.faultBarrier hd hb ?_ _ _ _ | split)

theorem stateFromLimits (hd : K.drivers = true) (hb : K.barriers = true) (h : Moves K r₀ s) (b : Fin 6) : Moves K r₀ (s.stateFromLimits b) := by
  unfold State.stateFromLimits; try extract_lets
  repeat' split
  all_goals (repeat' first | with_reducible assumption | with_reducible refine Moves.ite (fun _ => ?_) (fun _ => ?_) | exact fun _ => Or.inl rfl | exact fun r => Or.inl (by dsimp only; split <;> (try split) <;> rfl) | with_reducible refine Moves.faultBothLimits hd hb ?_ _ | with_reducible refine Moves.enterOpen hb ?_ _ | with_reducible refine Moves.enterClosed hb ?_ _ | with_reducible refine Moves.modBarrier hb ?_ _ _ ?_ | split)

theorem barrierFromContacts (hd : K.drivers = true) (hb : K.barriers = true) (h : Moves K r₀ s) (b : Fin 6) : Moves K r₀ (s.barrierFromContacts b) := by
  unfold State.barrierFromContacts; try extract_lets
  repeat' split
  all_goals (repeat' first | with_reducible assumption | with_reducible refine Moves.ite (fun _ => ?_) (fun _ => ?_) | exact fun _ => Or.inl rfl | exact fun r => Or.inl (by dsimp only; split <;> (try split) <;> rfl) | with_reducible refine Moves.modBarrier hb ?_ _ _ ?_ | with_reducible refine Moves.stateFromLimits hd hb ?_ _ | with_reducible refine Moves.faultBarrier hd hb ?_ _ _ _ | split)

theorem clearBarrier (hd : K.drivers = true) (hb : K.barriers = true) (h : Moves K r₀ s) (b : Fin 6) : Moves K r₀ (s.clearBarrier b) := by
  unfold State.clearBarrier; try extract_lets
  repeat' split
  all_goals (repeat' first | with_reducible assumption | with_reducible refine Moves.ite (fun _ => ?_) (fun _ => ?_) | exact (Or.inl rfl) | exact fun _ => Or.inl rfl | exact fun r => Or.inl (by dsimp only; split <;> (try split) <;> rfl) | with_reducible refine Moves.driverClear hd ?_ _ | with_reducible refine Moves.barrier hb ?_ _ _ ?_ | with_reducible refine Moves.reportBarrier  ?_ _ _ _ | with_reducible refine Moves.modBarrier hb ?_ _ _ ?_ | with_reducible refine Moves.stateFromLimits hd hb ?_ _ | with_reducible refine Moves.takeWants hb ?_ _ _ | split)

theorem lockBarrier (hd : K.drivers = true) (hb : K.barriers = true) (hl : K.locks = true) (h : Moves K r₀ s) (b : Fin 6) : Moves K r₀ (s.lockBarrier b) := by
  unfold State.lockBarrier; try extract_lets
  repeat' split
  all_goals (repeat' first | with_reducible assumption | with_reducible refine Moves.ite (fun _ => ?_) (fun _ => ?_) | exact (Or.inr hl) | with_reducible refine Moves.drivesOff hd ?_ _ | with_reducible refine Moves.barrier hb ?_ _ _ ?_ | with_reducible refine Moves.emit  ?_ _ | with_reducible refine Moves.takeWants hb ?_ _ _ | split)

theorem unlockBarrier (hd : K.drivers = true) (hb : K.barriers = true) (hl : K.locks = true) (h : Moves K r₀ s) (b : Fin 6) : Moves K r₀ (s.unlockBarrier b) := by
  unfold State.unlockBarrier; try extract_lets
  repeat' split
  all_goals (repeat' first | with_reducible assumption | with_reducible refine Moves.ite (fun _ => ?_) (fun _ => ?_) | exact fun _ => Or.inr hl | exact fun r => Or.inl (by dsimp only; split <;> (try split) <;> rfl) | with_reducible refine Moves.modBarrier hb ?_ _ _ ?_ | with_reducible refine Moves.emit  ?_ _ | with_reducible refine Moves.stateFromLimits hd hb ?_ _ | with_reducible refine Moves.takeWants hb ?_ _ _ | split)

theorem disableBarrier (hd : K.drivers = true) (hb : K.barriers = true) (h : Moves K r₀ s) (b : Fin 6) (t : Told) : Moves K r₀ (s.disableBarrier b t) := by
  unfold State.disableBarrier; try extract_lets
  repeat' split
  all_goals (repeat' first | with_reducible assumption | with_reducible refine Moves.ite (fun _ => ?_) (fun _ => ?_) | exact (Or.inl rfl) | exact fun _ => Or.inl rfl | exact fun r => Or.inl (by dsimp only; split <;> (try split) <;> rfl) | with_reducible refine Moves.drivesOff hd ?_ _ | with_reducible refine Moves.barrier hb ?_ _ _ ?_ | with_reducible refine Moves.emitIf  ?_ _ _ | with_reducible refine Moves.emit  ?_ _ | with_reducible refine Moves.modBarrier hb ?_ _ _ ?_ | with_reducible refine Moves.stateFromLimits hd hb ?_ _ | with_reducible refine Moves.takeWants hb ?_ _ _ | split)

theorem enableBarrier (hd : K.drivers = true) (hb : K.barriers = true) (h : Moves K r₀ s) (b : Fin 6) : Moves K r₀ (s.enableBarrier b) := by
  unfold State.enableBarrier; try extract_lets
  repeat' split
  all_goals (repeat' first | with_reducible assumption | with_reducible refine Moves.ite (fun _ => ?_) (fun _ => ?_) | exact fun _ => Or.inl rfl | exact fun r => Or.inl (by dsimp only; split <;> (try split) <;> rfl) | with_reducible refine Moves.modBarrier hb ?_ _ _ ?_ | with_reducible refine Moves.barrierFromContacts hd hb ?_ _ | with_reducible refine Moves.takeWants hb ?_ _ _ | split)

theorem recountBarrier (hb : K.barriers = true) (h : Moves K r₀ s) (b : Fin 6) : Moves K r₀ (s.recountBarrier b) := by
  refine h.updateBarrier hb b _ fun r => .inl ?_
  split <;> rfl

theorem setRelease (hb : K.barriers = true) (h : Moves K r₀ s) (b : Fin 6) (v : Release) : Moves K r₀ (s.setRelease b v) := by
  unfold State.setRelease; try extract_lets
  repeat' split
  all_goals (repeat' first | with_reducible assumption | with_reducible refine Moves.ite (fun _ => ?_) (fun _ => ?_) | exact fun _ => Or.inl rfl | exact fun r => Or.inl (by dsimp only; split <;> (try split) <;> rfl) | with_reducible refine Moves.updateBarrier hb ?_ _ _ ?_ | split)

theorem setHome (hb : K.barriers = true) (h : Moves K r₀ s) (b : Fin 6) (p : Port) (v : Bool) : Moves K r₀ (s.setHome b p v) := by
  unfold State.setHome; try extract_lets
  repeat' split
  all_goals (repeat' first | with_reducible assumption | with_reducible refine Moves.ite (fun _ => ?_) (fun _ => ?_) | exact fun _ => Or.inl rfl | exact fun r => Or.inl (by dsimp only; split <;> (try split) <;> rfl) | with_reducible refine Moves.updateBarrier hb ?_ _ _ ?_ | split)

/-! ### Drive Arbiter -/

theorem darDecide (hv : K.dar = true) (h : Moves K r₀ s) : Moves K r₀ (s.darDecide) := by
  unfold State.darDecide; try extract_lets
  repeat' split
  all_goals (repeat' first | with_reducible assumption | with_reducible refine Moves.ite (fun _ => ?_) (fun _ => ?_) | with_reducible refine Moves.emit  ?_ _ | with_reducible refine Moves.dar hv ?_ _ | split)

theorem darWants (hv : K.dar = true) (h : Moves K r₀ s) (b : Fin 6) (k : DriveKind) : Moves K r₀ (s.darWants b k) := by
  unfold State.darWants; try extract_lets
  repeat' split
  all_goals (repeat' first | with_reducible assumption | with_reducible refine Moves.ite (fun _ => ?_) (fun _ => ?_) | with_reducible refine Moves.darDecide hv ?_ | with_reducible refine Moves.dar hv ?_ _ | split)

theorem darNoWant (hv : K.dar = true) (h : Moves K r₀ s) (b : Fin 6) : Moves K r₀ (s.darNoWant b) := by
  unfold State.darNoWant; try extract_lets
  repeat' split
  all_goals (repeat' first | with_reducible assumption | with_reducible refine Moves.ite (fun _ => ?_) (fun _ => ?_) | with_reducible refine Moves.dar hv ?_ _ | split)

theorem darFreed (hv : K.dar = true) (h : Moves K r₀ s) (b : Fin 6) : Moves K r₀ (s.darFreed b) := by
  unfold State.darFreed; try extract_lets
  repeat' split
  all_goals (repeat' first | with_reducible assumption | with_reducible refine Moves.ite (fun _ => ?_) (fun _ => ?_) | with_reducible refine Moves.darDecide hv ?_ | with_reducible refine Moves.dar hv ?_ _ | split)

theorem darTaken (hv : K.dar = true) (h : Moves K r₀ s) : Moves K r₀ (s.darTaken) := by
  unfold State.darTaken; try extract_lets
  repeat' split
  all_goals (repeat' first | with_reducible assumption | with_reducible refine Moves.ite (fun _ => ?_) (fun _ => ?_) | with_reducible refine Moves.darDecide hv ?_ | with_reducible refine Moves.dar hv ?_ _ | split)

theorem darHandedBack (hv : K.dar = true) (h : Moves K r₀ s) (b : Fin 6) : Moves K r₀ (s.darHandedBack b) := by
  unfold State.darHandedBack; try extract_lets
  repeat' split
  all_goals (repeat' first | with_reducible assumption | with_reducible refine Moves.ite (fun _ => ?_) (fun _ => ?_) | with_reducible refine Moves.darDecide hv ?_ | with_reducible refine Moves.dar hv ?_ _ | split)

/-! ### Shed Sequencer -/

theorem writeFeed (hf : K.feeds = true) (h : Moves K r₀ s) (f : Fin 12) (v : Feed) : Moves K r₀ (s.writeFeed f v) := by
  unfold State.writeFeed; try extract_lets
  repeat' split
  all_goals (repeat' first | with_reducible assumption | with_reducible refine Moves.ite (fun _ => ?_) (fun _ => ?_) | with_reducible refine Moves.feed hf ?_ _ _ | with_reducible refine Moves.raise  ?_ _ _ | with_reducible refine Moves.emitIf  ?_ _ _ | split)

theorem changeFeed (hf : K.feeds = true) (h : Moves K r₀ s) (f : Fin 12) (g : Feed → Feed) : Moves K r₀ (s.changeFeed f g) := h.writeFeed hf f _

theorem endDeferral (hf : K.feeds = true) (h : Moves K r₀ s) (f : Fin 12) : Moves K r₀ (s.endDeferral f) := by
  unfold State.endDeferral; try extract_lets
  repeat' split
  all_goals (repeat' first | with_reducible assumption | with_reducible refine Moves.ite (fun _ => ?_) (fun _ => ?_) | with_reducible refine Moves.feed hf ?_ _ _ | with_reducible refine Moves.raise  ?_ _ _ | split)

theorem dropRequest (hf : K.feeds = true) (h : Moves K r₀ s) (f : Fin 12) : Moves K r₀ (s.dropRequest f) := by
  unfold State.dropRequest; try extract_lets
  repeat' split
  all_goals (repeat' first | with_reducible assumption | with_reducible refine Moves.ite (fun _ => ?_) (fun _ => ?_) | with_reducible refine Moves.feed hf ?_ _ _ | with_reducible refine Moves.emit  ?_ _ | split)

theorem unqueue (hc : K.coil = true) (h : Moves K r₀ s) (f : Fin 12) : Moves K r₀ (s.unqueue f) := by
  unfold State.unqueue; try extract_lets
  repeat' split
  all_goals (repeat' first | with_reducible assumption | with_reducible refine Moves.ite (fun _ => ?_) (fun _ => ?_) | with_reducible refine Moves.coil hc ?_ _ | split)

theorem beginPulse (hd : K.drivers = true) (hf : K.feeds = true) (hc : K.coil = true) (h : Moves K r₀ s) (f : Fin 12) (op : CoilOp) :
    Moves K r₀ (s.beginPulse f op) := by
  have t := h.unqueue hc f
  cases op with
  | shed => exact .driverOn hd (.coil hc ((t.endDeferral hf f).changeFeed hf f _) _) _
  | restore => exact .driverOn hd (.coil hc (t.changeFeed hf f _) _) _

theorem failRestore (hf : K.feeds = true) (hc : K.coil = true) (h : Moves K r₀ s) (f : Fin 12) : Moves K r₀ (s.failRestore f) := by
  unfold State.failRestore; try extract_lets
  repeat' split
  all_goals (repeat' first | with_reducible assumption | with_reducible refine Moves.ite (fun _ => ?_) (fun _ => ?_) | with_reducible refine Moves.unqueue hc ?_ _ | with_reducible refine Moves.changeFeed hf ?_ _ _ | with_reducible refine Moves.dropRequest hf ?_ _ | split)

theorem serveCoil (hd : K.drivers = true) (hf : K.feeds = true) (hc : K.coil = true) (n : Nat) (h : Moves K r₀ s) : Moves K r₀ (State.serveCoil n s) := by
  induction n generalizing s with
  | zero => exact h
  | succ n ih =>
    unfold State.serveCoil
    repeat' split
    · exact h
    · exact h.beginPulse hd hf hc _ _
    · exact ih (h.unqueue hc _)
    · exact h.beginPulse hd hf hc _ _
    · exact ih (h.failRestore hf hc _)

theorem joinCoil (hd : K.drivers = true) (hf : K.feeds = true) (hc : K.coil = true) (h : Moves K r₀ s) (f : Fin 12) (op : CoilOp) : Moves K r₀ (s.joinCoil f op) := by
  unfold State.joinCoil; try extract_lets
  repeat' split
  all_goals (repeat' first | with_reducible assumption | with_reducible refine Moves.ite (fun _ => ?_) (fun _ => ?_) | with_reducible refine Moves.unqueue hc ?_ _ | with_reducible refine Moves.serveCoil hd hf hc _ ?_ | with_reducible refine Moves.coil hc ?_ _ | split)

theorem testShed (hd : K.drivers = true) (hf : K.feeds = true) (hc : K.coil = true) (h : Moves K r₀ s) (f : Fin 12) : Moves K r₀ (s.testShed f) := by
  unfold State.testShed; try extract_lets
  repeat' split
  all_goals (repeat' first | with_reducible assumption | with_reducible refine Moves.ite (fun _ => ?_) (fun _ => ?_) | with_reducible refine Moves.joinCoil hd hf hc ?_ _ _ | with_reducible refine Moves.unqueue hc ?_ _ | split)

theorem testRestore (hd : K.drivers = true) (hf : K.feeds = true) (hc : K.coil = true) (h : Moves K r₀ s) (f : Fin 12) : Moves K r₀ (s.testRestore f) := by
  unfold State.testRestore; try extract_lets
  repeat' split
  all_goals (repeat' first | with_reducible assumption | with_reducible refine Moves.ite (fun _ => ?_) (fun _ => ?_) | with_reducible refine Moves.changeFeed hf ?_ _ _ | with_reducible refine Moves.joinCoil hd hf hc ?_ _ _ | with_reducible refine Moves.failRestore hf hc ?_ _ | split)

theorem testSheds (hd : K.drivers = true) (hf : K.feeds = true) (hc : K.coil = true) (h : Moves K r₀ s) (c : Fin 4) : Moves K r₀ (s.testSheds c) := by
  unfold State.testSheds; try extract_lets
  repeat' split
  all_goals (repeat' first | with_reducible assumption | with_reducible refine Moves.ite (fun _ => ?_) (fun _ => ?_) | with_reducible refine Moves.each ?_ (fun _ _ _ => ?_) | with_reducible refine Moves.testShed hd hf hc ?_ _ | split)

theorem testChain (hd : K.drivers = true) (hf : K.feeds = true) (hc : K.coil = true) (h : Moves K r₀ s) (c : Fin 4) : Moves K r₀ (s.testChain c) := by
  unfold State.testChain; try extract_lets
  repeat' split
  all_goals (repeat' first | with_reducible assumption | with_reducible refine Moves.ite (fun _ => ?_) (fun _ => ?_) | with_reducible refine Moves.each ?_ (fun _ _ _ => ?_) | with_reducible refine Moves.testRestore hd hf hc ?_ _ | with_reducible refine Moves.testSheds hd hf hc ?_ _ | split)

theorem settleChain (hd : K.drivers = true) (hf : K.feeds = true) (hc : K.coil = true) (h : Moves K r₀ s) (c : Fin 4) : Moves K r₀ (s.settleChain c) := by
  unfold State.settleChain; try extract_lets
  repeat' split
  all_goals (repeat' first | with_reducible assumption | with_reducible refine Moves.ite (fun _ => ?_) (fun _ => ?_) | with_reducible refine Moves.testChain hd hf hc ?_ _ | split)

theorem settleFeed (hd : K.drivers = true) (hf : K.feeds = true) (hc : K.coil = true) (h : Moves K r₀ s) (f : Fin 12) : Moves K r₀ (s.settleFeed f) := by
  unfold State.settleFeed; try extract_lets
  repeat' split
  all_goals (repeat' first | with_reducible assumption | with_reducible refine Moves.ite (fun _ => ?_) (fun _ => ?_) | with_reducible refine Moves.settleChain hd hf hc ?_ _ | split)

theorem tellShedAgain (h : Moves K r₀ s) (f : Fin 12) : Moves K r₀ (s.tellShedAgain f) := by
  unfold State.tellShedAgain; try extract_lets
  repeat' split
  all_goals (repeat' first | with_reducible assumption | with_reducible refine Moves.ite (fun _ => ?_) (fun _ => ?_) | with_reducible refine Moves.emitIf  ?_ _ _ | split)

theorem enterWarned (hf : K.feeds = true) (h : Moves K r₀ s) (f : Fin 12) (event : Bool) : Moves K r₀ (s.enterWarned f event) := by
  unfold State.enterWarned; try extract_lets
  repeat' split
  all_goals (repeat' first | with_reducible assumption | with_reducible refine Moves.ite (fun _ => ?_) (fun _ => ?_) | with_reducible refine Moves.changeFeed hf ?_ _ _ | with_reducible refine Moves.raise  ?_ _ _ | split)

theorem pullChain (hf : K.feeds = true) (h : Moves K r₀ s) (f : Fin 12) : Moves K r₀ (s.pullChain f) := by
  unfold State.pullChain; try extract_lets
  repeat' split
  all_goals (repeat' first | with_reducible assumption | with_reducible refine Moves.ite (fun _ => ?_) (fun _ => ?_) | with_reducible refine Moves.each ?_ (fun _ _ _ => ?_) | with_reducible refine Moves.changeFeed hf ?_ _ _ | with_reducible refine Moves.tellShedAgain  ?_ _ | split)

theorem predictFeed (hf : K.feeds = true) (h : Moves K r₀ s) (f : Fin 12) : Moves K r₀ (s.predictFeed f) := by
  unfold State.predictFeed; try extract_lets
  repeat' split
  all_goals (repeat' first | with_reducible assumption | with_reducible refine Moves.ite (fun _ => ?_) (fun _ => ?_) | with_reducible refine Moves.changeFeed hf ?_ _ _ | with_reducible refine Moves.pullChain hf ?_ _ | with_reducible refine Moves.tellShedAgain  ?_ _ | split)

theorem hardTrip (hd : K.drivers = true) (hf : K.feeds = true) (hc : K.coil = true) (h : Moves K r₀ s) (f : Fin 12) : Moves K r₀ (s.hardTrip f) := by
  unfold State.hardTrip; try extract_lets
  repeat' split
  all_goals (repeat' first | with_reducible assumption | with_reducible refine Moves.ite (fun _ => ?_) (fun _ => ?_) | with_reducible refine Moves.endDeferral hf ?_ _ | with_reducible refine Moves.changeFeed hf ?_ _ _ | with_reducible refine Moves.joinCoil hd hf hc ?_ _ _ | with_reducible refine Moves.unqueue hc ?_ _ | with_reducible refine Moves.dropRequest hf ?_ _ | with_reducible refine Moves.tellShedAgain  ?_ _ | split)

theorem judgeWarned (hf : K.feeds = true) (h : Moves K r₀ s) (f : Fin 12) : Moves K r₀ (s.judgeWarned f) := by
  unfold State.judgeWarned; try extract_lets
  repeat' split
  all_goals (repeat' first | with_reducible assumption | with_reducible refine Moves.ite (fun _ => ?_) (fun _ => ?_) | with_reducible refine Moves.predictFeed hf ?_ _ | with_reducible refine Moves.changeFeed hf ?_ _ _ | with_reducible refine Moves.feed hf ?_ _ _ | with_reducible refine Moves.emit  ?_ _ | split)

theorem judgeState (hd : K.drivers = true) (hf : K.feeds = true) (hc : K.coil = true) (h : Moves K r₀ s) (f : Fin 12) : Moves K r₀ (s.judgeState f) := by
  unfold State.judgeState; try extract_lets
  repeat' split
  all_goals (repeat' first | with_reducible assumption | with_reducible refine Moves.ite (fun _ => ?_) (fun _ => ?_) | with_reducible refine Moves.enterWarned hf ?_ _ _ | with_reducible refine Moves.judgeWarned hf ?_ _ | with_reducible refine Moves.pullChain hf ?_ _ | with_reducible refine Moves.testRestore hd hf hc ?_ _ | split)

theorem judgeFeed (hd : K.drivers = true) (hf : K.feeds = true) (hc : K.coil = true) (h : Moves K r₀ s) (f : Fin 12) (level : Nat) : Moves K r₀ (s.judgeFeed f level) := by
  unfold State.judgeFeed; try extract_lets
  repeat' split
  all_goals (repeat' first | with_reducible assumption | with_reducible refine Moves.ite (fun _ => ?_) (fun _ => ?_) | with_reducible refine Moves.hardTrip hd hf hc ?_ _ | with_reducible refine Moves.judgeState hd hf hc ?_ _ | with_reducible refine Moves.testSheds hd hf hc ?_ _ | split)

theorem judgeChain (hd : K.drivers = true) (hf : K.feeds = true) (hc : K.coil = true) (h : Moves K r₀ s) (i : Fin 4) (c : Fin 4) : Moves K r₀ (s.judgeChain i c) := by
  unfold State.judgeChain; try extract_lets
  repeat' split
  all_goals (repeat' first | with_reducible assumption | with_reducible refine Moves.ite (fun _ => ?_) (fun _ => ?_) | with_reducible refine Moves.each ?_ (fun _ _ _ => ?_) | with_reducible refine Moves.judgeFeed hd hf hc ?_ _ _ | with_reducible refine Moves.settleChain hd hf hc ?_ _ | split)

theorem pictureToShs (h : Moves K r₀ s) (i : Fin 4) : Moves K r₀ (s.pictureToShs i) := by
  unfold State.pictureToShs; try extract_lets
  repeat' split
  all_goals (repeat' first | with_reducible assumption | with_reducible refine Moves.ite (fun _ => ?_) (fun _ => ?_) | with_reducible refine Moves.each ?_ (fun _ _ _ => ?_) | with_reducible refine Moves.emit  ?_ _ | split)

theorem towardLive (hf : K.feeds = true) (hc : K.coil = true) (h : Moves K r₀ s) (f : Fin 12) : Moves K r₀ (s.towardLive f) := by
  unfold State.towardLive; try extract_lets
  repeat' split
  all_goals (repeat' first | with_reducible assumption | with_reducible refine Moves.ite (fun _ => ?_) (fun _ => ?_) | with_reducible refine Moves.unqueue hc ?_ _ | with_reducible refine Moves.changeFeed hf ?_ _ _ | with_reducible refine Moves.enterWarned hf ?_ _ _ | with_reducible refine Moves.emit  ?_ _ | split)

theorem faultFeed (hd : K.drivers = true) (hf : K.feeds = true) (hc : K.coil = true) (h : Moves K r₀ s) (f : Fin 12) (kind : FaultKind) (detail : FaultDetail) : Moves K r₀ (s.faultFeed f kind detail) := by
  unfold State.faultFeed; try extract_lets
  repeat' split
  all_goals (repeat' first | with_reducible assumption | with_reducible refine Moves.ite (fun _ => ?_) (fun _ => ?_) | with_reducible refine Moves.driverOff hd ?_ _ | with_reducible refine Moves.unqueue hc ?_ _ | with_reducible refine Moves.changeFeed hf ?_ _ _ | with_reducible refine Moves.raise  ?_ _ _ | with_reducible refine Moves.report  ?_ _ _ _ _ | with_reducible refine Moves.emit  ?_ _ | with_reducible refine Moves.settleFeed hd hf hc ?_ _ | with_reducible refine Moves.coil hc ?_ _ | split)

theorem feedDriverFault (hd : K.drivers = true) (hf : K.feeds = true) (hc : K.coil = true) (h : Moves K r₀ s) (f : Fin 12) (d : Fin 44) (k : DriverFault) : Moves K r₀ (s.feedDriverFault f d k) := by
  unfold State.feedDriverFault; try extract_lets
  repeat' split
  all_goals (repeat' first | with_reducible assumption | with_reducible refine Moves.ite (fun _ => ?_) (fun _ => ?_) | with_reducible refine Moves.faultFeed hd hf hc ?_ _ _ _ | with_reducible refine Moves.coil hc ?_ _ | split)

theorem pulseEnds (hd : K.drivers = true) (hc : K.coil = true) (h : Moves K r₀ s) : Moves K r₀ (s.pulseEnds) := by
  unfold State.pulseEnds; try extract_lets
  repeat' split
  all_goals (repeat' first | with_reducible assumption | with_reducible refine Moves.ite (fun _ => ?_) (fun _ => ?_) | with_reducible refine Moves.driverOff hd ?_ _ | with_reducible refine Moves.coil hc ?_ _ | split)

theorem rechargeExpires (hd : K.drivers = true) (hf : K.feeds = true) (hc : K.coil = true) (h : Moves K r₀ s) : Moves K r₀ (s.rechargeExpires) := by
  unfold State.rechargeExpires; try extract_lets
  repeat' split
  all_goals (repeat' first | with_reducible assumption | with_reducible refine Moves.ite (fun _ => ?_) (fun _ => ?_) | with_reducible refine Moves.each ?_ (fun _ _ _ => ?_) | with_reducible refine Moves.serveCoil hd hf hc _ ?_ | with_reducible refine Moves.settleChain hd hf hc ?_ _ | with_reducible refine Moves.coil hc ?_ _ | split)

theorem reachShed (hd : K.drivers = true) (hf : K.feeds = true) (hc : K.coil = true) (h : Moves K r₀ s) (f : Fin 12) (cause : ShedCause) : Moves K r₀ (s.reachShed f cause) := by
  unfold State.reachShed; try extract_lets
  repeat' split
  all_goals (repeat' first | with_reducible assumption | with_reducible refine Moves.ite (fun _ => ?_) (fun _ => ?_) | with_reducible refine Moves.changeFeed hf ?_ _ _ | with_reducible refine Moves.raise  ?_ _ _ | with_reducible refine Moves.emit  ?_ _ | with_reducible refine Moves.settleFeed hd hf hc ?_ _ | split)

theorem checkShed (hd : K.drivers = true) (hf : K.feeds = true) (hc : K.coil = true) (h : Moves K r₀ s) (w : CoilWork) : Moves K r₀ (s.checkShed w) := by
  unfold State.checkShed; try extract_lets
  repeat' split
  all_goals (repeat' first | with_reducible assumption | with_reducible refine Moves.ite (fun _ => ?_) (fun _ => ?_) | with_reducible refine Moves.reachShed hd hf hc ?_ _ _ | with_reducible refine Moves.faultFeed hd hf hc ?_ _ _ _ | with_reducible refine Moves.changeFeed hf ?_ _ _ | with_reducible refine Moves.joinCoil hd hf hc ?_ _ _ | with_reducible refine Moves.settleFeed hd hf hc ?_ _ | with_reducible refine Moves.feed hf ?_ _ _ | with_reducible refine Moves.towardLive hf hc ?_ _ | split)

theorem checkRestore (hd : K.drivers = true) (hf : K.feeds = true) (hc : K.coil = true) (h : Moves K r₀ s) (w : CoilWork) : Moves K r₀ (s.checkRestore w) := by
  unfold State.checkRestore; try extract_lets
  repeat' split
  all_goals (repeat' first | with_reducible assumption | with_reducible refine Moves.ite (fun _ => ?_) (fun _ => ?_) | with_reducible refine Moves.faultFeed hd hf hc ?_ _ _ _ | with_reducible refine Moves.raise  ?_ _ _ | with_reducible refine Moves.dropRequest hf ?_ _ | with_reducible refine Moves.changeFeed hf ?_ _ _ | with_reducible refine Moves.settleFeed hd hf hc ?_ _ | with_reducible refine Moves.emit  ?_ _ | split)

theorem checkDue (hd : K.drivers = true) (hf : K.feeds = true) (hc : K.coil = true) (h : Moves K r₀ s) : Moves K r₀ (s.checkDue) := by
  unfold State.checkDue; try extract_lets
  repeat' split
  all_goals (repeat' first | with_reducible assumption | with_reducible refine Moves.ite (fun _ => ?_) (fun _ => ?_) | with_reducible refine Moves.checkShed hd hf hc ?_ _ | with_reducible refine Moves.checkRestore hd hf hc ?_ _ | with_reducible refine Moves.coil hc ?_ _ | split)

theorem reachLive (hd : K.drivers = true) (hf : K.feeds = true) (hc : K.coil = true) (h : Moves K r₀ s) (f : Fin 12) (cause : ShedCause) : Moves K r₀ (s.reachLive f cause) := by
  unfold State.reachLive; try extract_lets
  repeat' split
  all_goals (repeat' first | with_reducible assumption | with_reducible refine Moves.ite (fun _ => ?_) (fun _ => ?_) | with_reducible refine Moves.unqueue hc ?_ _ | with_reducible refine Moves.changeFeed hf ?_ _ _ | with_reducible refine Moves.raise  ?_ _ _ | with_reducible refine Moves.emit  ?_ _ | with_reducible refine Moves.settleFeed hd hf hc ?_ _ | split)

theorem auxChange (hd : K.drivers = true) (hf : K.feeds = true) (hc : K.coil = true) (h : Moves K r₀ s) (f : Fin 12) (made : Bool) : Moves K r₀ (s.auxChange f made) := by
  unfold State.auxChange; try extract_lets
  repeat' split
  all_goals (repeat' first | with_reducible assumption | with_reducible refine Moves.ite (fun _ => ?_) (fun _ => ?_) | with_reducible refine Moves.changeFeed hf ?_ _ _ | with_reducible refine Moves.reachShed hd hf hc ?_ _ _ | with_reducible refine Moves.unqueue hc ?_ _ | with_reducible refine Moves.reachLive hd hf hc ?_ _ _ | split)

theorem shedFeed (hd : K.drivers = true) (hf : K.feeds = true) (hc : K.coil = true) (h : Moves K r₀ s) (f : Fin 12) (p : Port) : Moves K r₀ (s.shedFeed f p) := by
  unfold State.shedFeed; try extract_lets
  repeat' split
  all_goals (repeat' first | with_reducible assumption | with_reducible refine Moves.ite (fun _ => ?_) (fun _ => ?_) | with_reducible refine Moves.changeFeed hf ?_ _ _ | with_reducible refine Moves.dropRequest hf ?_ _ | with_reducible refine Moves.unqueue hc ?_ _ | with_reducible refine Moves.settleFeed hd hf hc ?_ _ | with_reducible refine Moves.tellShedAgain  ?_ _ | split)

theorem unshedFeed (hd : K.drivers = true) (hf : K.feeds = true) (hc : K.coil = true) (h : Moves K r₀ s) (f : Fin 12) (p : Port) : Moves K r₀ (s.unshedFeed f p) := by
  unfold State.unshedFeed; try extract_lets
  repeat' split
  all_goals (repeat' first | with_reducible assumption | with_reducible refine Moves.ite (fun _ => ?_) (fun _ => ?_) | with_reducible refine Moves.changeFeed hf ?_ _ _ | with_reducible refine Moves.towardLive hf hc ?_ _ | with_reducible refine Moves.settleFeed hd hf hc ?_ _ | split)

theorem restoreByA (hd : K.drivers = true) (hf : K.feeds = true) (hc : K.coil = true) (h : Moves K r₀ s) (f : Fin 12) : Moves K r₀ (s.restoreByA f).1 := by
  unfold State.restoreByA; try extract_lets
  repeat' split
  all_goals (repeat' first | with_reducible assumption | with_reducible refine Moves.ite (fun _ => ?_) (fun _ => ?_) | with_reducible refine Moves.changeFeed hf ?_ _ _ | with_reducible refine Moves.settleFeed hd hf hc ?_ _ | with_reducible refine Moves.towardLive hf hc ?_ _ | split)

theorem restoreByB (hd : K.drivers = true) (hf : K.feeds = true) (hc : K.coil = true) (h : Moves K r₀ s) (f : Fin 12) : Moves K r₀ (s.restoreByB f).1 := by
  unfold State.restoreByB; try extract_lets
  repeat' split
  all_goals (repeat' first | with_reducible assumption | with_reducible refine Moves.ite (fun _ => ?_) (fun _ => ?_) | with_reducible refine Moves.unshedFeed hd hf hc ?_ _ _ | split)

theorem clearRequest (hd : K.drivers = true) (hf : K.feeds = true) (hc : K.coil = true) (h : Moves K r₀ s) (f : Fin 12) : Moves K r₀ (s.clearRequest f) := by
  unfold State.clearRequest; try extract_lets
  repeat' split
  all_goals (repeat' first | with_reducible assumption | with_reducible refine Moves.ite (fun _ => ?_) (fun _ => ?_) | with_reducible refine Moves.feed hf ?_ _ _ | with_reducible refine Moves.settleFeed hd hf hc ?_ _ | split)

theorem deferFeed (hd : K.drivers = true) (hf : K.feeds = true) (hc : K.coil = true) (h : Moves K r₀ s) (f : Fin 12) (seconds : Nat) : Moves K r₀ (s.deferFeed f seconds).1 := by
  unfold State.deferFeed; try extract_lets
  repeat' split
  all_goals (repeat' first | with_reducible assumption | with_reducible refine Moves.ite (fun _ => ?_) (fun _ => ?_) | with_reducible refine Moves.changeFeed hf ?_ _ _ | with_reducible refine Moves.settleFeed hd hf hc ?_ _ | with_reducible refine Moves.unqueue hc ?_ _ | with_reducible refine Moves.feed hf ?_ _ _ | split)

theorem deferralExpires (hd : K.drivers = true) (hf : K.feeds = true) (hc : K.coil = true) (h : Moves K r₀ s) (f : Fin 12) : Moves K r₀ (s.deferralExpires f) := by
  unfold State.deferralExpires; try extract_lets
  repeat' split
  all_goals (repeat' first | with_reducible assumption | with_reducible refine Moves.ite (fun _ => ?_) (fun _ => ?_) | with_reducible refine Moves.endDeferral hf ?_ _ | with_reducible refine Moves.changeFeed hf ?_ _ _ | with_reducible refine Moves.pullChain hf ?_ _ | with_reducible refine Moves.enterWarned hf ?_ _ _ | with_reducible refine Moves.settleFeed hd hf hc ?_ _ | with_reducible refine Moves.tellShedAgain  ?_ _ | split)

theorem preArmExpires (hf : K.feeds = true) (h : Moves K r₀ s) (f : Fin 12) : Moves K r₀ (s.preArmExpires f) := by
  unfold State.preArmExpires; try extract_lets
  repeat' split
  all_goals (repeat' first | with_reducible assumption | with_reducible refine Moves.ite (fun _ => ?_) (fun _ => ?_) | with_reducible refine Moves.feed hf ?_ _ _ | split)

theorem linkResetFeeds (hd : K.drivers = true) (hf : K.feeds = true) (hc : K.coil = true) (h : Moves K r₀ s) : Moves K r₀ (s.linkResetFeeds) := by
  unfold State.linkResetFeeds; try extract_lets
  repeat' split
  all_goals (repeat' first | with_reducible assumption | with_reducible refine Moves.ite (fun _ => ?_) (fun _ => ?_) | with_reducible refine Moves.each ?_ (fun _ _ _ => ?_) | with_reducible refine Moves.preArmExpires hf ?_ _ | with_reducible refine Moves.deferralExpires hd hf hc ?_ _ | split)

theorem clearFeed (hd : K.drivers = true) (hf : K.feeds = true) (hc : K.coil = true) (h : Moves K r₀ s) (f : Fin 12) : Moves K r₀ (s.clearFeed f) := by
  unfold State.clearFeed; try extract_lets
  repeat' split
  all_goals (repeat' first | with_reducible assumption | with_reducible refine Moves.ite (fun _ => ?_) (fun _ => ?_) | with_reducible refine Moves.driverClear hd ?_ _ | with_reducible refine Moves.feed hf ?_ _ _ | with_reducible refine Moves.changeFeed hf ?_ _ _ | with_reducible refine Moves.settleFeed hd hf hc ?_ _ | with_reducible refine Moves.reachLive hd hf hc ?_ _ _ | with_reducible refine Moves.reachShed hd hf hc ?_ _ _ | split)

theorem disableFeed (hd : K.drivers = true) (hf : K.feeds = true) (hc : K.coil = true) (h : Moves K r₀ s) (f : Fin 12) : Moves K r₀ (s.disableFeed f) := by
  unfold State.disableFeed; try extract_lets
  repeat' split
  all_goals (repeat' first | with_reducible assumption | with_reducible refine Moves.ite (fun _ => ?_) (fun _ => ?_) | with_reducible refine Moves.endDeferral hf ?_ _ | with_reducible refine Moves.unqueue hc ?_ _ | with_reducible refine Moves.changeFeed hf ?_ _ _ | with_reducible refine Moves.emit  ?_ _ | with_reducible refine Moves.settleFeed hd hf hc ?_ _ | split)

theorem feedFromContact (hf : K.feeds = true) (h : Moves K r₀ s) (f : Fin 12) : Moves K r₀ (s.feedFromContact f) := by
  unfold State.feedFromContact; try extract_lets
  repeat' split
  all_goals (repeat' first | with_reducible assumption | with_reducible refine Moves.ite (fun _ => ?_) (fun _ => ?_) | with_reducible refine Moves.changeFeed hf ?_ _ _ | split)

theorem enableFeed (hd : K.drivers = true) (hf : K.feeds = true) (hc : K.coil = true) (h : Moves K r₀ s) (f : Fin 12) : Moves K r₀ (s.enableFeed f) := by
  unfold State.enableFeed; try extract_lets
  repeat' split
  all_goals (repeat' first | with_reducible assumption | with_reducible refine Moves.ite (fun _ => ?_) (fun _ => ?_) | with_reducible refine Moves.feedFromContact hf ?_ _ | with_reducible refine Moves.unqueue hc ?_ _ | with_reducible refine Moves.settleFeed hd hf hc ?_ _ | split)

/-! ### Protection Evaluator -/

theorem moveRule (hr : K.rules = true) (h : Moves K r₀ s) (t : Fin 16) (r : Rule) : Moves K r₀ (s.moveRule t r) := by
  unfold State.moveRule; try extract_lets
  repeat' split
  all_goals (repeat' first | with_reducible assumption | with_reducible refine Moves.ite (fun _ => ?_) (fun _ => ?_) | with_reducible refine Moves.rule hr ?_ _ _ | with_reducible refine Moves.raise  ?_ _ _ | split)

theorem idleRule (hr : K.rules = true) (h : Moves K r₀ s) (t : Fin 16) : Moves K r₀ (s.idleRule t) := by
  unfold State.idleRule; try extract_lets
  repeat' split
  all_goals (repeat' first | with_reducible assumption | with_reducible refine Moves.ite (fun _ => ?_) (fun _ => ?_) | with_reducible refine Moves.moveRule hr ?_ _ _ | split)

theorem stepRule (hr : K.rules = true) (h : Moves K r₀ s) (t : Fin 16) (i : Fin 4) : Moves K r₀ (s.stepRule t i) := by
  unfold State.stepRule; try extract_lets
  repeat' split
  all_goals (repeat' first | with_reducible assumption | with_reducible refine Moves.ite (fun _ => ?_) (fun _ => ?_) | with_reducible refine Moves.moveRule hr ?_ _ _ | split)

theorem moveSump (hs : K.sumps = true) (h : Moves K r₀ s) (i : Fin 4) (v : SumpState) : Moves K r₀ (s.moveSump i v) := by
  unfold State.moveSump; try extract_lets
  repeat' split
  all_goals (repeat' first | with_reducible assumption | with_reducible refine Moves.ite (fun _ => ?_) (fun _ => ?_) | exact Or.inl rfl | exact Or.inr fun _ => Nat.zero_le _ | exact Or.inr (ringAfterSweep_length _ _) | with_reducible refine Moves.sump hs ?_ _ _ ?_ | with_reducible refine Moves.raise  ?_ _ _ | split)

theorem recomputeSump (hs : K.sumps = true) (h : Moves K r₀ s) (i : Fin 4) : Moves K r₀ (s.recomputeSump i) := by
  unfold State.recomputeSump; try extract_lets
  repeat' split
  all_goals (repeat' first | with_reducible assumption | with_reducible refine Moves.ite (fun _ => ?_) (fun _ => ?_) | with_reducible refine Moves.moveSump hs ?_ _ _ | split)

theorem setToken (hs : K.sumps = true) (h : Moves K r₀ s) (i : Fin 4) (token : Option (Fin 8)) (duty : Nat) (ran : Bool) :
    Moves K r₀ (s.setToken i token duty ran) := .sump hs h i _ (.inl rfl)

theorem placeLead (hd : K.drivers = true) (hp : K.pumps = true) (hs : K.sumps = true) (h : Moves K r₀ s) (i : Fin 4) (level : Nat) :
    Moves K r₀ (s.placeLead i level) := by
  unfold State.placeLead
  split
  · exact h
  · next k _ =>
    extract_lets t lead u
    have ht : Moves K r₀ t := ite (fun _ => h) fun _ => h.setToken hs i _ 0 false
    have hu : Moves K r₀ u := ite (fun _ => ht.placeAuto hd hp lead false) fun _ => ht
    repeat' split
    · exact hu.placeAuto hd hp _ false
    · exact hu
    · exact hu

theorem noteLeadRan (hs : K.sumps = true) (h : Moves K r₀ s) (i : Fin 4) : Moves K r₀ (s.noteLeadRan i) := by
  unfold State.noteLeadRan; try extract_lets
  repeat' split
  all_goals (repeat' first | with_reducible assumption | with_reducible refine Moves.ite (fun _ => ?_) (fun _ => ?_) | exact Or.inl rfl | exact Or.inr fun _ => Nat.zero_le _ | exact Or.inr (ringAfterSweep_length _ _) | with_reducible refine Moves.sump hs ?_ _ _ ?_ | split)

theorem placeAll (hd : K.drivers = true) (hp : K.pumps = true) (h : Moves K r₀ s) (i : Fin 4) (level : Nat) : Moves K r₀ (s.placeAll i level) := by
  unfold State.placeAll; try extract_lets
  repeat' split
  all_goals (repeat' first | with_reducible assumption | with_reducible refine Moves.ite (fun _ => ?_) (fun _ => ?_) | with_reducible refine Moves.each ?_ (fun _ _ _ => ?_) | with_reducible refine Moves.placeAuto hd hp ?_ _ _ | split)

theorem fixOverride (hd : K.drivers = true) (hp : K.pumps = true) (h : Moves K r₀ s) (i : Fin 4) (level : Nat) : Moves K r₀ (s.fixOverride i level) := by
  unfold State.fixOverride; try extract_lets
  repeat' split
  all_goals (repeat' first | with_reducible assumption | with_reducible refine Moves.ite (fun _ => ?_) (fun _ => ?_) | with_reducible refine Moves.each ?_ (fun _ _ _ => ?_) | with_reducible refine Moves.clearOverride hd hp ?_ _ | split)

theorem removeAtStop (hd : K.drivers = true) (hp : K.pumps = true) (h : Moves K r₀ s) (i : Fin 4) (level : Nat) : Moves K r₀ (s.removeAtStop i level) := by
  unfold State.removeAtStop; try extract_lets
  repeat' split
  all_goals (repeat' first | with_reducible assumption | with_reducible refine Moves.ite (fun _ => ?_) (fun _ => ?_) | with_reducible refine Moves.each ?_ (fun _ _ _ => ?_) | with_reducible refine Moves.removeAuto hd hp ?_ _ | split)

theorem evaluatePumps (hd : K.drivers = true) (hp : K.pumps = true) (hs : K.sumps = true) (h : Moves K r₀ s) (i : Fin 4) (level : Nat) : Moves K r₀ (s.evaluatePumps i level) := by
  unfold State.evaluatePumps; try extract_lets
  repeat' split
  all_goals (repeat' first | with_reducible assumption | with_reducible refine Moves.ite (fun _ => ?_) (fun _ => ?_) | with_reducible refine Moves.placeLead hd hp hs ?_ _ _ | with_reducible refine Moves.noteLeadRan hs ?_ _ | with_reducible refine Moves.placeAll hd hp ?_ _ _ | with_reducible refine Moves.fixOverride hd hp ?_ _ _ | with_reducible refine Moves.removeAtStop hd hp ?_ _ _ | split)

theorem pumpLeft (hs : K.sumps = true) (h : Moves K r₀ s) (m : Fin 8) (i : Fin 4) : Moves K r₀ (s.pumpLeft m i) := by
  unfold State.pumpLeft; try extract_lets
  repeat' split
  all_goals (repeat' first | with_reducible assumption | with_reducible refine Moves.ite (fun _ => ?_) (fun _ => ?_) | with_reducible refine Moves.setToken hs ?_ _ _ _ _ | split)

theorem evaluateBarriers (hb : K.barriers = true) (h : Moves K r₀ s) (i : Fin 4) (level : Nat) : Moves K r₀ (s.evaluateBarriers i level) := by
  unfold State.evaluateBarriers; try extract_lets
  repeat' split
  all_goals (repeat' first | with_reducible assumption | with_reducible refine Moves.ite (fun _ => ?_) (fun _ => ?_) | with_reducible refine Moves.each ?_ (fun _ _ _ => ?_) | with_reducible refine Moves.autoDemandBarrier hb ?_ _ _ | split)

theorem takeThresholds (hs : K.sumps = true) (h : Moves K r₀ s) (i : Fin 4) : Moves K r₀ (s.takeThresholds i) := .sump hs h i _ (Or.inl rfl)

theorem evaluatePicture (hd : K.drivers = true) (hp : K.pumps = true) (hb : K.barriers = true) (hs : K.sumps = true) (hr : K.rules = true) (h : Moves K r₀ s) (i : Fin 4) : Moves K r₀ (s.evaluatePicture i) := by
  unfold State.evaluatePicture; try extract_lets
  repeat' split
  all_goals (repeat' first | with_reducible assumption | with_reducible refine Moves.ite (fun _ => ?_) (fun _ => ?_) | with_reducible refine Moves.each ?_ (fun _ _ _ => ?_) | with_reducible refine Moves.recomputeSump hs ?_ _ | with_reducible refine Moves.noteLeadRan hs ?_ _ | with_reducible refine Moves.stepRule hr ?_ _ _ | with_reducible refine Moves.evaluatePumps hd hp hs ?_ _ _ | with_reducible refine Moves.evaluateBarriers hb ?_ _ _ | split)

theorem pictureToPev (hd : K.drivers = true) (hp : K.pumps = true) (hb : K.barriers = true) (hs : K.sumps = true) (hr : K.rules = true) (h : Moves K r₀ s) (i : Fin 4) : Moves K r₀ (s.pictureToPev i) :=
  (h.takeThresholds hs i).evaluatePicture hd hp hb hs hr i

theorem feedReport (hb : K.barriers = true) (hs : K.sumps = true) (h : Moves K r₀ s) (i : Fin 4) : Moves K r₀ (s.feedReport i) := by
  unfold State.feedReport; try extract_lets
  repeat' split
  all_goals (repeat' first | with_reducible assumption | with_reducible refine Moves.ite (fun _ => ?_) (fun _ => ?_) | with_reducible refine Moves.recomputeSump hs ?_ _ | with_reducible refine Moves.evaluateBarriers hb ?_ _ _ | split)

theorem resetToken (hs : K.sumps = true) (h : Moves K r₀ s) (i : Fin 4) : Moves K r₀ (s.resetToken i) := by
  unfold State.resetToken; try extract_lets
  repeat' split
  all_goals (repeat' first | with_reducible assumption | with_reducible refine Moves.ite (fun _ => ?_) (fun _ => ?_) | with_reducible refine Moves.setToken hs ?_ _ _ _ _ | split)

theorem tokenLeaves (hs : K.sumps = true) (h : Moves K r₀ s) (m : Fin 8) (i : Fin 4) : Moves K r₀ (s.tokenLeaves m i) := by
  unfold State.tokenLeaves; try extract_lets
  repeat' split
  all_goals (repeat' first | with_reducible assumption | with_reducible refine Moves.ite (fun _ => ?_) (fun _ => ?_) | with_reducible refine Moves.resetToken hs ?_ _ | split)

theorem tokenTakes (hs : K.sumps = true) (h : Moves K r₀ s) (m : Fin 8) (i : Fin 4) : Moves K r₀ (s.tokenTakes m i) := by
  unfold State.tokenTakes; try extract_lets
  repeat' split
  all_goals (repeat' first | with_reducible assumption | with_reducible refine Moves.ite (fun _ => ?_) (fun _ => ?_) | with_reducible refine Moves.setToken hs ?_ _ _ _ _ | split)

theorem idleRulesOf (hr : K.rules = true) (h : Moves K r₀ s) (i : Fin 4) : Moves K r₀ (s.idleRulesOf i) := by
  unfold State.idleRulesOf; try extract_lets
  repeat' split
  all_goals (repeat' first | with_reducible assumption | with_reducible refine Moves.ite (fun _ => ?_) (fun _ => ?_) | with_reducible refine Moves.each ?_ (fun _ _ _ => ?_) | with_reducible refine Moves.idleRule hr ?_ _ | split)

/-! ### Order Queue Unit -/

theorem postSettled (ho : K.orders = true) (n : Nat) (h : Moves K r₀ s) (p : Port) : Moves K r₀ (State.postSettled n s p) := by
  induction n generalizing s with
  | zero => exact h
  | succ n ih =>
    unfold State.postSettled
    split
    · exact ih (.postOne ho h p _ _ _)
    · exact h

theorem post (ho : K.orders = true) (h : Moves K r₀ s) (p : Port) (e : Entry) (o : Ending) (d : Detail) : Moves K r₀ (s.post p e o d) := by
  unfold State.post; try extract_lets
  repeat' split
  all_goals (repeat' first | with_reducible assumption | with_reducible refine Moves.ite (fun _ => ?_) (fun _ => ?_) | with_reducible refine Moves.postSettled ho _ ?_ _ | with_reducible refine Moves.postOne ho ?_ _ _ _ _ | split)

theorem conclude (ho : K.orders = true) (h : Moves K r₀ s) (p : Port) (e : Entry) (v : Verdict) : Moves K r₀ (s.conclude p e v) := by
  unfold State.conclude
  split
  · exact h
  · exact h.modEntry ho p _ _ fun _ => ⟨rfl, rfl⟩
  · exact h.modEntry ho p _ _ fun _ => ⟨rfl, rfl⟩
  · exact h.post ho p e _ _

theorem startOrder (hd : K.drivers = true) (hp : K.pumps = true) (h : Moves K r₀ s) (p : Port) (m : Fin 8) : Moves K r₀ (s.startOrder p m).1 := by
  unfold State.startOrder; try extract_lets
  repeat' split
  all_goals (repeat' first | with_reducible assumption | with_reducible refine Moves.ite (fun _ => ?_) (fun _ => ?_) | with_reducible refine Moves.portDemandPump hd hp ?_ _ _ _ | split)

theorem stopOrder (hd : K.drivers = true) (hp : K.pumps = true) (h : Moves K r₀ s) (p : Port) (m : Fin 8) : Moves K r₀ (s.stopOrder p m).1 := by
  unfold State.stopOrder; try extract_lets
  repeat' split
  all_goals (repeat' first | with_reducible assumption | with_reducible refine Moves.ite (fun _ => ?_) (fun _ => ?_) | with_reducible refine Moves.portDemandPump hd hp ?_ _ _ _ | split)

theorem closeOrder (hb : K.barriers = true) (h : Moves K r₀ s) (p : Port) (b : Fin 6) : Moves K r₀ (s.closeOrder p b).1 := by
  unfold State.closeOrder; try extract_lets
  repeat' split
  all_goals (repeat' first | with_reducible assumption | with_reducible refine Moves.ite (fun _ => ?_) (fun _ => ?_) | with_reducible refine Moves.portDemandBarrier hb ?_ _ _ _ | split)

theorem openEffect (hb : K.barriers = true) (h : Moves K r₀ s) (p : Port) (b : Fin 6) : Moves K r₀ (s.openEffect p b) := by
  unfold State.openEffect; try extract_lets
  repeat' split
  all_goals (repeat' first | with_reducible assumption | with_reducible refine Moves.ite (fun _ => ?_) (fun _ => ?_) | exact fun _ => Or.inl rfl | exact fun r => Or.inl (by dsimp only; split <;> (try split) <;> rfl) | with_reducible refine Moves.updateBarrier hb ?_ _ _ ?_ | split)

theorem openOrder (hb : K.barriers = true) (h : Moves K r₀ s) (p : Port) (b : Fin 6) : Moves K r₀ (s.openOrder p b).1 := by
  unfold State.openOrder; try extract_lets
  repeat' split
  all_goals (repeat' first | with_reducible assumption | with_reducible refine Moves.ite (fun _ => ?_) (fun _ => ?_) | with_reducible refine Moves.openEffect hb ?_ _ _ | split)

theorem homeOrder (hb : K.barriers = true) (h : Moves K r₀ s) (p : Port) (b : Fin 6) : Moves K r₀ (s.homeOrder p b).1 := by
  unfold State.homeOrder; try extract_lets
  repeat' split
  all_goals (repeat' first | with_reducible assumption | with_reducible refine Moves.ite (fun _ => ?_) (fun _ => ?_) | with_reducible refine Moves.setHome hb ?_ _ _ _ | split)

theorem shedOrder (hd : K.drivers = true) (hf : K.feeds = true) (hc : K.coil = true) (h : Moves K r₀ s) (p : Port) (f : Fin 12) : Moves K r₀ (s.shedOrder p f).1 := by
  unfold State.shedOrder; try extract_lets
  repeat' split
  all_goals (repeat' first | with_reducible assumption | with_reducible refine Moves.ite (fun _ => ?_) (fun _ => ?_) | with_reducible refine Moves.shedFeed hd hf hc ?_ _ _ | with_reducible refine Moves.takeItems hf ?_ _ | split)

theorem restoreOrder (hd : K.drivers = true) (hf : K.feeds = true) (hc : K.coil = true) (h : Moves K r₀ s) (p : Port) (f : Fin 12) :
    Moves K r₀ (s.restoreOrder p f).1 := by
  unfold State.restoreOrder
  dsimp only
  split
  · exact (h.takeItems hf f).restoreByA hd hf hc f
  · exact (h.takeItems hf f).restoreByB hd hf hc f

theorem deferOrder (hd : K.drivers = true) (hf : K.feeds = true) (hc : K.coil = true) (h : Moves K r₀ s) (f : Fin 12) (seconds : Nat) : Moves K r₀ (s.deferOrder f seconds).1 := by
  unfold State.deferOrder; try extract_lets
  repeat' split
  all_goals (repeat' first | with_reducible assumption | with_reducible refine Moves.ite (fun _ => ?_) (fun _ => ?_) | with_reducible refine Moves.deferFeed hd hf hc ?_ _ _ | with_reducible refine Moves.takeItems hf ?_ _ | split)

theorem orderEffect (hd : K.drivers = true) (hp : K.pumps = true) (hb : K.barriers = true) (hf : K.feeds = true) (hc : K.coil = true) (h : Moves K r₀ s) (p : Port) (e : Entry) : Moves K r₀ (s.orderEffect p e).1 := by
  unfold State.orderEffect; try extract_lets
  repeat' split
  all_goals (repeat' first | with_reducible assumption | with_reducible refine Moves.ite (fun _ => ?_) (fun _ => ?_) | with_reducible refine Moves.startOrder hd hp ?_ _ _ | with_reducible refine Moves.stopOrder hd hp ?_ _ _ | with_reducible refine Moves.closeOrder hb ?_ _ _ | with_reducible refine Moves.openOrder hb ?_ _ _ | with_reducible refine Moves.homeOrder hb ?_ _ _ | with_reducible refine Moves.shedOrder hd hf hc ?_ _ _ | with_reducible refine Moves.restoreOrder hd hf hc ?_ _ _ | with_reducible refine Moves.deferOrder hd hf hc ?_ _ _ | split)

theorem activateEntry (hd : K.drivers = true) (hp : K.pumps = true) (hb : K.barriers = true) (hf : K.feeds = true) (hc : K.coil = true) (ho : K.orders = true) (h : Moves K r₀ s) (p : Port) (e : Entry) :
    Moves K r₀ (s.activateEntry p e) :=
  ((h.modEntry ho p e.seq (fun x => { x with active := true, mark := false }) fun _ => ⟨rfl, rfl⟩).orderEffect hd hp hb hf hc p e).conclude ho p e _

theorem advance (hd : K.drivers = true) (hp : K.pumps = true) (hb : K.barriers = true) (hf : K.feeds = true) (hc : K.coil = true) (ho : K.orders = true) (n : Nat) (h : Moves K r₀ s) (p : Port) (t : Target) : Moves K r₀ (State.advance n s p t) := by
  induction n generalizing s with
  | zero => exact h
  | succ n ih =>
    unfold State.advance
    repeat' split
    · exact h
    · exact ih (h.activateEntry hd hp hb hf hc ho p _)
    · exact h

theorem applyNews (hd : K.drivers = true) (hp : K.pumps = true) (hb : K.barriers = true) (hf : K.feeds = true) (hc : K.coil = true) (ho : K.orders = true) (h : Moves K r₀ s) (t : Target) (verdict : Port → Entry → Verdict) : Moves K r₀ (s.applyNews t verdict) := by
  unfold State.applyNews; try extract_lets
  repeat' split
  all_goals (repeat' first | with_reducible assumption | with_reducible refine Moves.ite (fun _ => ?_) (fun _ => ?_) | with_reducible refine Moves.each ?_ (fun _ _ _ => ?_) | with_reducible refine Moves.conclude ho ?_ _ _ _ | with_reducible refine Moves.advance hd hp hb hf hc ho _ ?_ _ _ | split)

theorem disturbAll (ho : K.orders = true) (h : Moves K r₀ s) (p : Port) (t : Target) : Moves K r₀ (s.disturbAll p t) := by
  unfold State.disturbAll; try extract_lets
  repeat' split
  all_goals (repeat' first | with_reducible assumption | with_reducible refine Moves.ite (fun _ => ?_) (fun _ => ?_) | with_reducible refine Moves.each ?_ (fun _ _ _ => ?_) | with_reducible refine Moves.post ho ?_ _ _ _ _ | split)

theorem newsOfPump (hd : K.drivers = true) (hp : K.pumps = true) (hb : K.barriers = true) (hf : K.feeds = true) (hc : K.coil = true) (ho : K.orders = true) (h : Moves K r₀ s) (m : Fin 8) (news : PumpNews) : Moves K r₀ (s.newsOfPump m news) := by
  unfold State.newsOfPump; try extract_lets
  repeat' split
  all_goals (repeat' first | with_reducible assumption | with_reducible refine Moves.ite (fun _ => ?_) (fun _ => ?_) | with_reducible refine Moves.each ?_ (fun _ _ _ => ?_) | with_reducible refine Moves.disturbAll ho ?_ _ _ | with_reducible refine Moves.applyNews hd hp hb hf hc ho ?_ _ _ | split)

theorem newsOfBarrier (hd : K.drivers = true) (hp : K.pumps = true) (hb : K.barriers = true) (hf : K.feeds = true) (hc : K.coil = true) (ho : K.orders = true) (h : Moves K r₀ s) (b : Fin 6) (news : BarrierNews) : Moves K r₀ (s.newsOfBarrier b news) := by
  unfold State.newsOfBarrier; try extract_lets
  repeat' split
  all_goals (repeat' first | with_reducible assumption | with_reducible refine Moves.ite (fun _ => ?_) (fun _ => ?_) | with_reducible refine Moves.each ?_ (fun _ _ _ => ?_) | with_reducible refine Moves.disturbAll ho ?_ _ _ | with_reducible refine Moves.applyNews hd hp hb hf hc ho ?_ _ _ | split)

theorem newsOfFeed (hd : K.drivers = true) (hp : K.pumps = true) (hb : K.barriers = true) (hf : K.feeds = true) (hc : K.coil = true) (ho : K.orders = true) (h : Moves K r₀ s) (f : Fin 12) (news : FeedNews) : Moves K r₀ (s.newsOfFeed f news) := by
  unfold State.newsOfFeed; try extract_lets
  repeat' split
  all_goals (repeat' first | with_reducible assumption | with_reducible refine Moves.ite (fun _ => ?_) (fun _ => ?_) | with_reducible refine Moves.each ?_ (fun _ _ _ => ?_) | with_reducible refine Moves.disturbAll ho ?_ _ _ | with_reducible refine Moves.applyNews hd hp hb hf hc ho ?_ _ _ | split)

theorem staleEntry (hd : K.drivers = true) (hp : K.pumps = true) (hb : K.barriers = true) (hf : K.feeds = true) (hc : K.coil = true) (ho : K.orders = true) (h : Moves K r₀ s) (p : Port) (e : Entry) : Moves K r₀ (s.staleEntry p e) := by
  unfold State.staleEntry
  extract_lets t
  have ht : Moves K r₀ t := by
    dsimp only [t]
    split
    · exact h.portDemandPump hd hp _ p false
    · exact h
  exact advance hd hp hb hf hc ho 9 (ht.post ho p e _ _) p e.target

theorem staleIfMarked (hd : K.drivers = true) (hp : K.pumps = true) (hb : K.barriers = true) (hf : K.feeds = true) (hc : K.coil = true) (ho : K.orders = true) (h : Moves K r₀ s) (p : Port) (n : Nat) : Moves K r₀ (s.staleIfMarked p n) := by
  unfold State.staleIfMarked; try extract_lets
  repeat' split
  all_goals (repeat' first | with_reducible assumption | with_reducible refine Moves.ite (fun _ => ?_) (fun _ => ?_) | with_reducible refine Moves.staleEntry hd hp hb hf hc ho ?_ _ _ | split)

theorem ageQueue (hd : K.drivers = true) (hp : K.pumps = true) (hb : K.barriers = true) (hf : K.feeds = true) (hc : K.coil = true) (ho : K.orders = true) (h : Moves K r₀ s) (p : Port) : Moves K r₀ (s.ageQueue p) := by
  unfold State.ageQueue; try extract_lets
  repeat' split
  all_goals (repeat' first | with_reducible assumption | with_reducible refine Moves.ite (fun _ => ?_) (fun _ => ?_) | with_reducible refine Moves.each ?_ (fun _ _ _ => ?_) | with_reducible refine Moves.staleIfMarked hd hp hb hf hc ho ?_ _ _ | with_reducible refine Moves.markQueue ho ?_ _ _ | split)

theorem ageExpires (hd : K.drivers = true) (hp : K.pumps = true) (hb : K.barriers = true) (hf : K.feeds = true) (hc : K.coil = true) (ho : K.orders = true) (h : Moves K r₀ s) : Moves K r₀ (s.ageExpires) := by
  unfold State.ageExpires; try extract_lets
  repeat' split
  all_goals (repeat' first | with_reducible assumption | with_reducible refine Moves.ite (fun _ => ?_) (fun _ => ?_) | with_reducible refine Moves.each ?_ (fun _ _ _ => ?_) | with_reducible refine Moves.ageQueue hd hp hb hf hc ho ?_ _ | split)

theorem withdrawAll (ho : K.orders = true) (h : Moves K r₀ s) (p : Port) (t : Target) : Moves K r₀ (s.withdrawAll p t) := by
  unfold State.withdrawAll; try extract_lets
  repeat' split
  all_goals (repeat' first | with_reducible assumption | with_reducible refine Moves.ite (fun _ => ?_) (fun _ => ?_) | with_reducible refine Moves.each ?_ (fun _ _ _ => ?_) | with_reducible refine Moves.post ho ?_ _ _ _ _ | split)

theorem undoOrder (hd : K.drivers = true) (hp : K.pumps = true) (hb : K.barriers = true) (hf : K.feeds = true) (hc : K.coil = true) (h : Moves K r₀ s) (p : Port) (e : Entry) : Moves K r₀ (s.undoOrder p e) := by
  unfold State.undoOrder; try extract_lets
  repeat' split
  all_goals (repeat' first | with_reducible assumption | with_reducible refine Moves.ite (fun _ => ?_) (fun _ => ?_) | exact fun _ => Or.inl rfl | exact fun r => Or.inl (by dsimp only; split <;> (try split) <;> rfl) | with_reducible refine Moves.portDemandPump hd hp ?_ _ _ _ | with_reducible refine Moves.updateBarrier hb ?_ _ _ ?_ | with_reducible refine Moves.setRelease hb ?_ _ _ | with_reducible refine Moves.feed hf ?_ _ _ | with_reducible refine Moves.unshedFeed hd hf hc ?_ _ _ | with_reducible refine Moves.clearRequest hd hf hc ?_ _ | split)

theorem abortOn (hd : K.drivers = true) (hp : K.pumps = true) (hb : K.barriers = true) (hf : K.feeds = true) (hc : K.coil = true) (ho : K.orders = true) (h : Moves K r₀ s) (p : Port) (e : Entry) : Moves K r₀ (s.abortOn p e) := by
  unfold State.abortOn; try extract_lets
  repeat' split
  all_goals (repeat' first | with_reducible assumption | with_reducible refine Moves.ite (fun _ => ?_) (fun _ => ?_) | with_reducible refine Moves.post ho ?_ _ _ _ _ | with_reducible refine Moves.undoOrder hd hp hb hf hc ?_ _ _ | with_reducible refine Moves.emit  ?_ _ | split)

theorem abortSettles (ho : K.orders = true) (h : Moves K r₀ s) (p : Port) : Moves K r₀ (s.abortSettles p) := by
  unfold State.abortSettles; try extract_lets
  repeat' split
  all_goals (repeat' first | with_reducible assumption | with_reducible refine Moves.ite (fun _ => ?_) (fun _ => ?_) | with_reducible refine Moves.each ?_ (fun _ _ _ => ?_) | with_reducible refine Moves.postOne ho ?_ _ _ _ _ | split)

theorem linkResetOrders (hd : K.drivers = true) (hp : K.pumps = true) (hf : K.feeds = true) (hc : K.coil = true) (p : Port) (h : Moves K r₀ (s.setOrders p {})) : Moves K r₀ (s.linkResetOrders p) := by
  unfold State.linkResetOrders; dsimp only
  have key : ∀ t m, Moves K r₀ t → Moves K r₀ (if t.pumps[m].demand.has p then t.portDemandPump m p false else t) := by
    intro t m g
    split
    · exact g.portDemandPump hd hp m p false
    · exact g
  split
  · exact (h.each key).linkResetFeeds hd hf hc
  · exact h.each key

/-! ### The notices -/

theorem ownerContact (hd : K.drivers = true) (hp : K.pumps = true) (hb : K.barriers = true) (hf : K.feeds = true) (hc : K.coil = true) (h : Moves K r₀ s) (k : Fin 52) (made : Bool) : Moves K r₀ (s.ownerContact k made) := by
  unfold State.ownerContact
  repeat' split
  all_goals first | exact h.pumpFlow hp _ _ | exact h.pumpOverload hd hp _ _ | exact h.openLimitChange hd hb _ _ | exact h.closedLimitChange hd hb _ _ | exact h.sealChange hb _ _ | exact h.driveOverload hd hb _ _ | exact h.auxChange hd hf hc _ _

theorem ownerFault (hd : K.drivers = true) (hp : K.pumps = true) (hb : K.barriers = true) (hf : K.feeds = true) (hc : K.coil = true) (h : Moves K r₀ s) (d : Fin 44) (k : DriverFault) : Moves K r₀ (s.ownerFault d k) := by
  unfold State.ownerFault
  repeat' split
  all_goals first | exact h.pumpDriverFault hd hp _ _ _ | exact h.barrierDriverFault hd hb _ _ _ | exact h.feedDriverFault hd hf hc _ _ _

theorem sweepAll (h : Moves K r₀ s) : Moves K r₀ s.sweepAll := h.each fun _ _ g => g.emit _

theorem acceptOrder (hd : K.drivers = true) (hp : K.pumps = true) (hb : K.barriers = true) (hf : K.feeds = true) (hc : K.coil = true) (ho : K.orders = true) (p : Port) (e : Entry) (h : Moves K r₀ (s.enqueue p e)) : Moves K r₀ (s.acceptOrder p e) := by
  unfold State.acceptOrder
  dsimp only
  split
  · exact postSettled ho 1 h p
  · exact advance hd hp hb hf hc ho 9 h p e.target

theorem handle (h : Moves .notices r₀ s) (n : Notice) : Moves .notices r₀ (s.handle n) := by
  cases n with
  | contact _ _ => exact h.ownerContact rfl rfl rfl rfl rfl _ _
  | driverFault _ _ => exact h.ownerFault rfl rfl rfl rfl rfl _ _
  | sweepSump _ => exact h.sweepSump rfl rfl _
  | pictureToPev _ => exact h.pictureToPev rfl rfl rfl rfl rfl _
  | pictureToShs _ => exact h.pictureToShs  _
  | shsChain _ _ => exact h.judgeChain rfl rfl rfl _ _
  | feedReport _ => exact h.feedReport rfl rfl _
  | pumpLeft _ _ => exact h.pumpLeft rfl _ _
  | sarPending _ _ => exact h.sarPending rfl _ _
  | sarNotPending _ => exact h.sarNotPending rfl _
  | sarActing _ _ => exact h.sarActing rfl _ _
  | sarFreed _ => exact h.sarFreed rfl
  | sarTaken _ => exact h.sarTaken rfl
  | sarHandedBack _ => exact h.sarHandedBack rfl
  | grantPump _ => exact h.grantPump rfl rfl _
  | darWants _ _ => exact h.darWants rfl _ _
  | darNoWant _ => exact h.darNoWant rfl _
  | darFreed _ => exact h.darFreed rfl _
  | darTaken _ => exact h.darTaken rfl
  | darHandedBack _ => exact h.darHandedBack rfl _
  | grantBarrier _ => exact h.grantBarrier rfl rfl _
  | pumpNews _ _ => exact h.newsOfPump rfl rfl rfl rfl rfl rfl _ _
  | barrierNews _ _ => exact h.newsOfBarrier rfl rfl rfl rfl rfl rfl _ _
  | feedNews _ _ => exact h.newsOfFeed rfl rfl rfl rfl rfl rfl _ _
  | fault _ => exact .capture rfl h _
  | activate _ _ => exact advance rfl rfl rfl rfl rfl rfl 9 h _ _

theorem drain (n : Nat) (picks : Picks) (h : Moves .notices r₀ s) : Moves .notices r₀ (State.drain n picks s) := by
  induction n generalizing s picks with
  | zero => exact h
  | succ n ih =>
    unfold State.drain; dsimp only
    split
    · exact h
    · exact ih _ ((h.takeNotice _).handle _)

end Moves

end Sys2Proof.Machine
end

