-- ==== Sys2Proof/Laws/Kept.lean ====
section
/-! SUPPORT. What a run of writes keeps: the ground, each part that its scope leaves out, and the invariants that every single write keeps. -/

namespace Sys2Proof.Machine

/-! ### Single writes -/

namespace State

variable (s : State)

theorem partnerOff_shape (d : Fin 44) : ∃ ds, s.partnerOff d = { s with drivers := ds } := by
  unfold partnerOff
  split
  · exact ⟨s.drivers, rfl⟩
  · split
    · exact ⟨_, rfl⟩
    · exact ⟨s.drivers, rfl⟩

/-- A command ON writes drivers and notices alone. -/
theorem driverOn_shape (d : Fin 44) : ∃ ds w, s.driverOn d = { s with drivers := ds, work := w } := by
  obtain ⟨ds, h⟩ := s.partnerOff_shape d
  unfold driverOn
  dsimp only
  rw [h]
  split <;> exact ⟨_, _, rfl⟩

/-- A trip writes drivers and notices alone. -/
theorem driverTrip_shape (d : Fin 44) (k : DriverFault) : ∃ ds w, s.driverTrip d k = { s with drivers := ds, work := w } := by
  unfold driverTrip
  split <;> exact ⟨_, _, rfl⟩

/-- A capture writes the fault record and the latches alone. -/
theorem capture_shape (f : FaultReport) : ∃ x ps, s.capture f = { s with fcr := x, ports := ps } := by
  unfold capture
  split <;> exact ⟨_, _, rfl⟩

/-- A completion writes the orders and the latches alone. -/
theorem postOne_shape (p : Port) (e : Entry) (o : Ending) (d : Detail) : ∃ os ps, s.postOne p e o d = { s with orders := os, ports := ps } := by
  unfold postOne
  split <;> exact ⟨_, _, rfl⟩

end State

namespace Moves

variable {K : Scope} {r s : State}


/-- Writes within any scope leave the ground alone. -/
theorem ground (h : Moves K r s) : s.ground = r.ground := by
  induction h with
  | refl => rfl
  | driverOn _ _ d ih => obtain ⟨_, _, e⟩ := State.driverOn_shape _ d; rw [e]; exact ih
  | driverTrip _ _ d k ih => obtain ⟨_, _, e⟩ := State.driverTrip_shape _ d k; rw [e]; exact ih
  | capture _ _ f ih => obtain ⟨_, _, e⟩ := State.capture_shape _ f; rw [e]; exact ih
  | postOne _ _ p x o d ih => obtain ⟨_, _, e⟩ := State.postOne_shape _ p x o d; rw [e]; exact ih
  | _ => assumption

/-- Writes outside a part leave it alone. -/
theorem drivers_eq (off : K.drivers = false) (h : Moves K r s) : s.drivers = r.drivers := by
  induction h with
  | refl => rfl
  | driverOn hk _ d ih => rw [off] at hk; cases hk
  | driverTrip hk _ d k ih => rw [off] at hk; cases hk
  | capture _ _ f ih => obtain ⟨_, _, e⟩ := State.capture_shape _ f; rw [e]; exact ih
  | postOne _ _ p x o d ih => obtain ⟨_, _, e⟩ := State.postOne_shape _ p x o d; rw [e]; exact ih
  | driverOff hk _ _ ih => rw [off] at hk; cases hk
  | driverClear hk _ _ ih => rw [off] at hk; cases hk
  | _ => assumption

/-- Writes outside a part leave it alone. -/
theorem pumps_eq (off : K.pumps = false) (h : Moves K r s) : s.pumps = r.pumps := by
  induction h with
  | refl => rfl
  | driverOn _ _ d ih => obtain ⟨_, _, e⟩ := State.driverOn_shape _ d; rw [e]; exact ih
  | driverTrip _ _ d k ih => obtain ⟨_, _, e⟩ := State.driverTrip_shape _ d k; rw [e]; exact ih
  | capture _ _ f ih => obtain ⟨_, _, e⟩ := State.capture_shape _ f; rw [e]; exact ih
  | postOne _ _ p x o d ih => obtain ⟨_, _, e⟩ := State.postOne_shape _ p x o d; rw [e]; exact ih
  | pump hk _ _ _ _ ih => rw [off] at hk; cases hk
  | _ => assumption

/-- Writes outside a part leave it alone. -/
theorem barriers_eq (off : K.barriers = false) (h : Moves K r s) : s.barriers = r.barriers := by
  induction h with
  | refl => rfl
  | driverOn _ _ d ih => obtain ⟨_, _, e⟩ := State.driverOn_shape _ d; rw [e]; exact ih
  | driverTrip _ _ d k ih => obtain ⟨_, _, e⟩ := State.driverTrip_shape _ d k; rw [e]; exact ih
  | capture _ _ f ih => obtain ⟨_, _, e⟩ := State.capture_shape _ f; rw [e]; exact ih
  | postOne _ _ p x o d ih => obtain ⟨_, _, e⟩ := State.postOne_shape _ p x o d; rw [e]; exact ih
  | barrier hk _ _ _ _ ih => rw [off] at hk; cases hk
  | _ => assumption

/-- Writes outside a part leave it alone. -/
theorem feeds_eq (off : K.feeds = false) (h : Moves K r s) : s.feeds = r.feeds := by
  induction h with
  | refl => rfl
  | driverOn _ _ d ih => obtain ⟨_, _, e⟩ := State.driverOn_shape _ d; rw [e]; exact ih
  | driverTrip _ _ d k ih => obtain ⟨_, _, e⟩ := State.driverTrip_shape _ d k; rw [e]; exact ih
  | capture _ _ f ih => obtain ⟨_, _, e⟩ := State.capture_shape _ f; rw [e]; exact ih
  | postOne _ _ p x o d ih => obtain ⟨_, _, e⟩ := State.postOne_shape _ p x o d; rw [e]; exact ih
  | feed hk _ _ _ ih => rw [off] at hk; cases hk
  | _ => assumption

/-- Writes outside a part leave it alone. -/
theorem coil_eq (off : K.coil = false) (h : Moves K r s) : s.coil = r.coil := by
  induction h with
  | refl => rfl
  | driverOn _ _ d ih => obtain ⟨_, _, e⟩ := State.driverOn_shape _ d; rw [e]; exact ih
  | driverTrip _ _ d k ih => obtain ⟨_, _, e⟩ := State.driverTrip_shape _ d k; rw [e]; exact ih
  | capture _ _ f ih => obtain ⟨_, _, e⟩ := State.capture_shape _ f; rw [e]; exact ih
  | postOne _ _ p x o d ih => obtain ⟨_, _, e⟩ := State.postOne_shape _ p x o d; rw [e]; exact ih
  | coil hk _ _ ih => rw [off] at hk; cases hk
  | _ => assumption

/-- Writes outside a part leave it alone. -/
theorem orders_eq (off : K.orders = false) (h : Moves K r s) : s.orders = r.orders := by
  induction h with
  | refl => rfl
  | driverOn _ _ d ih => obtain ⟨_, _, e⟩ := State.driverOn_shape _ d; rw [e]; exact ih
  | driverTrip _ _ d k ih => obtain ⟨_, _, e⟩ := State.driverTrip_shape _ d k; rw [e]; exact ih
  | capture _ _ f ih => obtain ⟨_, _, e⟩ := State.capture_shape _ f; rw [e]; exact ih
  | postOne hk _ p x o d ih => rw [off] at hk; cases hk
  | mapQueue hk _ _ _ _ ih => rw [off] at hk; cases hk
  | _ => assumption

/-- Writes outside a part leave it alone. -/
theorem sumps_eq (off : K.sumps = false) (h : Moves K r s) : s.sumps = r.sumps := by
  induction h with
  | refl => rfl
  | driverOn _ _ d ih => obtain ⟨_, _, e⟩ := State.driverOn_shape _ d; rw [e]; exact ih
  | driverTrip _ _ d k ih => obtain ⟨_, _, e⟩ := State.driverTrip_shape _ d k; rw [e]; exact ih
  | capture _ _ f ih => obtain ⟨_, _, e⟩ := State.capture_shape _ f; rw [e]; exact ih
  | postOne _ _ p x o d ih => obtain ⟨_, _, e⟩ := State.postOne_shape _ p x o d; rw [e]; exact ih
  | sump hk _ _ _ _ ih => rw [off] at hk; cases hk
  | _ => assumption

/-- Writes outside a part leave it alone. -/
theorem rules_eq (off : K.rules = false) (h : Moves K r s) : s.rules = r.rules := by
  induction h with
  | refl => rfl
  | driverOn _ _ d ih => obtain ⟨_, _, e⟩ := State.driverOn_shape _ d; rw [e]; exact ih
  | driverTrip _ _ d k ih => obtain ⟨_, _, e⟩ := State.driverTrip_shape _ d k; rw [e]; exact ih
  | capture _ _ f ih => obtain ⟨_, _, e⟩ := State.capture_shape _ f; rw [e]; exact ih
  | postOne _ _ p x o d ih => obtain ⟨_, _, e⟩ := State.postOne_shape _ p x o d; rw [e]; exact ih
  | rule hk _ _ _ ih => rw [off] at hk; cases hk
  | _ => assumption

/-- Writes outside a part leave it alone. -/
theorem sar_eq (off : K.sar = false) (h : Moves K r s) : s.sar = r.sar := by
  induction h with
  | refl => rfl
  | driverOn _ _ d ih => obtain ⟨_, _, e⟩ := State.driverOn_shape _ d; rw [e]; exact ih
  | driverTrip _ _ d k ih => obtain ⟨_, _, e⟩ := State.driverTrip_shape _ d k; rw [e]; exact ih
  | capture _ _ f ih => obtain ⟨_, _, e⟩ := State.capture_shape _ f; rw [e]; exact ih
  | postOne _ _ p x o d ih => obtain ⟨_, _, e⟩ := State.postOne_shape _ p x o d; rw [e]; exact ih
  | sar hk _ _ ih => rw [off] at hk; cases hk
  | _ => assumption

/-- Writes outside a part leave it alone. -/
theorem dar_eq (off : K.dar = false) (h : Moves K r s) : s.dar = r.dar := by
  induction h with
  | refl => rfl
  | driverOn _ _ d ih => obtain ⟨_, _, e⟩ := State.driverOn_shape _ d; rw [e]; exact ih
  | driverTrip _ _ d k ih => obtain ⟨_, _, e⟩ := State.driverTrip_shape _ d k; rw [e]; exact ih
  | capture _ _ f ih => obtain ⟨_, _, e⟩ := State.capture_shape _ f; rw [e]; exact ih
  | postOne _ _ p x o d ih => obtain ⟨_, _, e⟩ := State.postOne_shape _ p x o d; rw [e]; exact ih
  | dar hk _ _ ih => rw [off] at hk; cases hk
  | _ => assumption

/-- Writes outside a part leave it alone. -/
theorem fcr_eq (off : K.fcr = false) (h : Moves K r s) : s.fcr = r.fcr := by
  induction h with
  | refl => rfl
  | driverOn _ _ d ih => obtain ⟨_, _, e⟩ := State.driverOn_shape _ d; rw [e]; exact ih
  | driverTrip _ _ d k ih => obtain ⟨_, _, e⟩ := State.driverTrip_shape _ d k; rw [e]; exact ih
  | capture hk _ f ih => rw [off] at hk; cases hk
  | postOne _ _ p x o d ih => obtain ⟨_, _, e⟩ := State.postOne_shape _ p x o d; rw [e]; exact ih
  | _ => assumption

/-! ### The outputs of a pair (R14, R16) -/

end Moves

theorem partnerD_symm {d e : Fin 44} (h : partnerD d = some e) : partnerD e = some d := by
  revert d e
  decide +kernel

theorem partnerD_ne {d e : Fin 44} (h : partnerD d = some e) : d ≠ e := by
  revert d e
  decide +kernel

namespace State

variable (s : State)

/-- A write of one output keeps the pairs apart when it puts the output OFF, or finds its partner OFF. -/
theorem PairsApart.setDriver {s : State} (h : s.PairsApart) (d : Fin 44) (v : Driver)
    (hv : v.energised = true → v.commanded = true ∧ v.latch = none)
    (hp : v.commanded = true → ∀ e, partnerD d = some e → s.drivers[e].commanded = false) : (s.setDriver d v).PairsApart := by
  refine ⟨fun x e hx => ?_, fun x => ?_⟩
  · rw [State.setDriver_drivers]
    simp only [get_set]
    by_cases h1 : d = x
    · subst h1
      rw [if_pos rfl, if_neg (partnerD_ne hx)]
      intro g
      rw [hp g.1 e hx] at g
      exact absurd g.2 (by decide)
    · rw [if_neg h1]
      by_cases h2 : d = e
      · subst h2
        rw [if_pos rfl]
        intro g
        rw [hp g.2 x (partnerD_symm hx)] at g
        exact absurd g.1 (by decide)
      · rw [if_neg h2]
        exact h.1 x e hx
  · rw [State.setDriver_drivers]
    simp only [get_set]
    by_cases h1 : d = x
    · rw [if_pos h1]
      exact hv
    · rw [if_neg h1]
      exact h.2 x

theorem PairsApart.driverOff {s : State} (h : s.PairsApart) (d : Fin 44) : (s.driverOff d).PairsApart :=
  h.setDriver d _ (fun g => absurd g (by simp [Driver.off])) fun g => absurd g (by simp [Driver.off])

theorem PairsApart.partnerOff {s : State} (h : s.PairsApart) (d : Fin 44) : (s.partnerOff d).PairsApart := by
  unfold State.partnerOff
  split
  · exact h
  · split
    · exact h.driverOff _
    · exact h

/-- After R14's first part the partner stands OFF. -/
theorem partnerOff_partner (d e : Fin 44) (h : partnerD d = some e) : (s.partnerOff d).drivers[e].commanded = false := by
  unfold partnerOff
  rw [h]
  dsimp only
  split
  · simp only [driverOff, setDriver, get_set_self]
    rfl
  · next g => simpa using g

theorem PairsApart.driverOn {s : State} (h : s.PairsApart) (d : Fin 44) : (s.driverOn d).PairsApart := by
  unfold State.driverOn
  dsimp only
  have hp := h.partnerOff d
  split
  · next g => exact hp.setDriver d _ (fun _ => ⟨rfl, g⟩) fun _ e he => s.partnerOff_partner d e he
  · exact hp.setDriver d _ (fun g => absurd g (by simp)) fun _ e he => s.partnerOff_partner d e he

theorem PairsApart.driverClear {s : State} (h : s.PairsApart) (d : Fin 44) : (s.driverClear d).PairsApart :=
  h.setDriver d _ (fun g => absurd g (by simp)) fun g => absurd g (by simp)

theorem PairsApart.driverTrip {s : State} (h : s.PairsApart) (d : Fin 44) (k : DriverFault) : (s.driverTrip d k).PairsApart := by
  unfold State.driverTrip
  split
  · refine h.setDriver d _ (fun g => absurd g (by simp)) fun g e he => ?_
    have := h.1 d e he
    cases hc : s.drivers[e].commanded
    · rfl
    · exact absurd ⟨g, hc⟩ this
  · exact h

end State

namespace Moves

variable {K : Scope} {r s : State}

/-- Writes keep the outputs of every pair apart. -/
theorem pairsApart (h : Moves K r s) (hr : r.PairsApart) : s.PairsApart := by
  induction h with
  | refl => exact hr
  | driverOff _ _ d ih => exact ih.driverOff d
  | driverOn _ _ d ih => exact ih.driverOn d
  | driverClear _ _ d ih => exact ih.driverClear d
  | driverTrip _ _ d k ih => exact ih.driverTrip d k
  | capture _ _ f ih => obtain ⟨_, _, e⟩ := State.capture_shape _ f; rw [e]; exact ih
  | postOne _ _ p x o d ih => obtain ⟨_, _, e⟩ := State.postOne_shape _ p x o d; rw [e]; exact ih
  | _ => assumption

/-- Writes that lock and unlock nothing keep every locked flag. -/
theorem locked (h : Moves K r s) (off : K.locks = false) :
    (∀ m : Fin 8, s.pumps[m].locked = r.pumps[m].locked) ∧ ∀ b : Fin 6, s.barriers[b].locked = r.barriers[b].locked := by
  induction h with
  | refl => exact ⟨fun _ => rfl, fun _ => rfl⟩
  | driverOn _ _ d ih => obtain ⟨_, _, e⟩ := State.driverOn_shape _ d; rw [e]; exact ih
  | driverTrip _ _ d k ih => obtain ⟨_, _, e⟩ := State.driverTrip_shape _ d k; rw [e]; exact ih
  | capture _ _ f ih => obtain ⟨_, _, e⟩ := State.capture_shape _ f; rw [e]; exact ih
  | postOne _ _ p x o d ih => obtain ⟨_, _, e⟩ := State.postOne_shape _ p x o d; rw [e]; exact ih
  | pump _ _ m v hv ih =>
    refine ⟨fun j => ?_, ih.2⟩
    rw [State.setPump_pumps, get_set]
    split
    · next g =>
      subst g
      rw [← ih.1, hv.resolve_right (by simp [off])]
    · exact ih.1 j
  | barrier _ _ b v hv ih =>
    refine ⟨ih.1, fun j => ?_⟩
    rw [State.setBarrier_barriers, get_set]
    split
    · next g =>
      subst g
      rw [← ih.2, hv.resolve_right (by simp [off])]
    · exact ih.2 j
  | _ => assumption

/-- Writes keep the history rings within their bound (R22). -/
theorem ringsBounded (h : Moves K r s) (hr : r.RingsBounded) : s.RingsBounded := by
  induction h with
  | refl => exact hr
  | driverOn _ _ d ih => obtain ⟨_, _, e⟩ := State.driverOn_shape _ d; rw [e]; exact ih
  | driverTrip _ _ d k ih => obtain ⟨_, _, e⟩ := State.driverTrip_shape _ d k; rw [e]; exact ih
  | capture _ _ f ih => obtain ⟨_, _, e⟩ := State.capture_shape _ f; rw [e]; exact ih
  | postOne _ _ p x o d ih => obtain ⟨_, _, e⟩ := State.postOne_shape _ p x o d; rw [e]; exact ih
  | sump _ _ i v hv ih =>
    intro j
    rw [State.setSump_sumps, get_set]
    split
    · have := ih i
      rcases hv with g | g
      · rw [g]; exact this
      · exact g this
    · exact ih j
  | _ => assumption

/-! ### Slots and completions (R122, R125) -/

end Moves

namespace State

theorem SlotsRight.of_setOrders {s : State} (h : s.SlotsRight) (p : Port) (o : PortOrders) (ho : o.SlotsRight) : (s.setOrders p o).SlotsRight := by
  intro q
  rw [ordersOf_setOrders]
  split
  · exact ho
  · exact h q

theorem used_map (o : PortOrders) (g : Entry → Entry) (hg : ∀ x, (g x).slot = x.slot) :
    PortOrders.used { o with queue := o.queue.map g } = o.used := by
  unfold PortOrders.used
  simp only [List.map_map]
  congr 1
  exact List.map_congr_left fun x _ => hg x

/-- A completion frees no slot and takes none: the entry leaves the queue, its record joins the list (R125). -/
theorem SlotsRight.postOne {s : State} (h : s.SlotsRight) (p : Port) (e : Entry) (o : Ending) (d : Detail) : (s.postOne p e o d).SlotsRight := by
  unfold State.postOne
  split
  · next st =>
    have hq := h p
    refine fun q => ?_
    rw [ordersOf_latchOn]
    refine h.of_setOrders p _ ?_ q
    simp only [stands, List.any_eq_true, Bool.and_eq_true, beq_iff_eq] at st
    obtain ⟨x, hx, hs, hl⟩ := st
    obtain ⟨hlen, hnd, hlt⟩ := hq
    generalize hQ : (s.ordersOf p).queue = Q at *
    generalize hD : (s.ordersOf p).done = D at *
    simp only [PortOrders.used, hQ, hD] at hnd hlt
    have hsub : List.Sublist ((Q.filter fun y => y.seq != e.seq).map (·.slot)) (Q.map (·.slot)) := List.filter_sublist.map _
    have hnot : e.slot ∉ (Q.filter fun y => y.seq != e.seq).map (·.slot) := by
      intro hm
      obtain ⟨y, hy, hye⟩ := List.mem_map.mp hm
      have hy' := List.mem_filter.mp hy
      have hQn : (Q.map (·.slot)).Nodup := (List.nodup_append.mp hnd).1
      have hxy : y = x := List.inj_on_of_nodup_map hQn hy'.1 hx (hye.trans hl.symm)
      have := hy'.2
      rw [hxy, hs] at this
      simp at this
    have hmem : e.slot ∈ Q.map (·.slot) := List.mem_map.mpr ⟨x, hx, hl⟩
    have hshort : (Q.filter fun y => y.seq != e.seq).length + 1 ≤ Q.length := by
      have : (Q.filter fun y => y.seq != e.seq).length < Q.length := by
        refine List.length_filter_lt_length_iff_exists.mpr ⟨x, hx, ?_⟩
        simp [hs]
      omega
    refine ⟨?_, ?_, ?_⟩
    · simp only [List.length_map, List.length_append, List.length_cons, List.length_nil]
      omega
    · simp only [PortOrders.used, List.map_map, List.map_append, List.map_cons, List.map_nil, completionOf]
      show (List.map (fun y : Entry => y.slot) (Q.filter fun y => y.seq != e.seq) ++ (List.map (·.slot) D ++ [e.slot])).Nodup
      rw [List.nodup_append] at hnd ⊢
      obtain ⟨n1, n2, n3⟩ := hnd
      refine ⟨n1.sublist hsub, ?_, ?_⟩
      · rw [List.nodup_append]
        refine ⟨n2, by simp, fun a ha b hb => ?_⟩
        simp only [List.mem_singleton] at hb
        subst hb
        exact fun he => n3 _ hmem _ ha he.symm
      · intro a ha b hb
        rcases List.mem_append.mp hb with hb | hb
        · exact n3 a (hsub.subset ha) b hb
        · simp only [List.mem_singleton] at hb
          subst hb
          exact fun he => hnot (he ▸ ha)
    · intro n hn
      simp only [PortOrders.used, List.map_map, List.map_append, List.map_cons, List.map_nil, completionOf] at hn
      rcases List.mem_append.mp hn with hn | hn
      · exact hlt n (List.mem_append_left _ (hsub.subset hn))
      · rcases List.mem_append.mp hn with hn | hn
        · exact hlt n (List.mem_append_right _ hn)
        · simp only [List.mem_singleton] at hn
          subst hn
          exact hlt _ (List.mem_append_left _ hmem)
  · exact h

end State

namespace Moves

variable {K : Scope} {r s : State}

/-- Writes keep the slots of every port right. -/
theorem slotsRight (h : Moves K r s) (hr : r.SlotsRight) : s.SlotsRight := by
  induction h with
  | refl => exact hr
  | driverOn _ _ d ih => obtain ⟨_, _, e⟩ := State.driverOn_shape _ d; rw [e]; exact ih
  | driverTrip _ _ d k ih => obtain ⟨_, _, e⟩ := State.driverTrip_shape _ d k; rw [e]; exact ih
  | capture _ _ f ih => obtain ⟨_, _, e⟩ := State.capture_shape _ f; rw [e]; exact ih
  | postOne _ _ p x o d ih => exact ih.postOne p x o d
  | mapQueue _ _ p g hg ih =>
    refine ih.of_setOrders p _ ⟨?_, ?_, ?_⟩
    · simpa using (ih p).1
    · rw [State.used_map _ _ fun x => congrArg (·.1) (hg x).1]
      exact (ih p).2.1
    · rw [State.used_map _ _ fun x => congrArg (·.1) (hg x).1]
      exact (ih p).2.2
  | _ => assumption

/-- Writes only add to the completion lists (R125). -/
theorem done_prefix (h : Moves K r s) (p : Port) : (r.ordersOf p).done <+: (s.ordersOf p).done := by
  induction h with
  | refl => exact List.prefix_rfl
  | driverOn _ _ d ih => obtain ⟨_, _, e⟩ := State.driverOn_shape _ d; rw [e]; exact ih
  | driverTrip _ _ d k ih => obtain ⟨_, _, e⟩ := State.driverTrip_shape _ d k; rw [e]; exact ih
  | capture _ _ f ih => obtain ⟨_, _, e⟩ := State.capture_shape _ f; rw [e]; exact ih
  | postOne _ _ q x o d ih =>
    refine ih.trans ?_
    unfold State.postOne
    split
    · rw [State.ordersOf_latchOn, State.ordersOf_setOrders]
      split
      · next e => subst e; exact List.prefix_append _ _
      · exact List.prefix_rfl
    · exact List.prefix_rfl
  | mapQueue _ _ q g hg ih =>
    refine ih.trans ?_
    rw [State.ordersOf_setOrders]
    split
    · next e => subst e; exact List.prefix_rfl
    · exact List.prefix_rfl
  | _ => assumption

/-- Writes only add to the latches (R148). -/
theorem latched (h : Moves K r s) (p : Port) (k : EventKind) (i : Nat) (hr : r.latched p k i = true) : s.latched p k i = true := by
  induction h with
  | refl => exact hr
  | latchOn _ q j src ih => rw [State.latched_latchOn, ih]; rfl
  | driverOn _ _ d ih => obtain ⟨_, _, e⟩ := State.driverOn_shape _ d; rw [e]; exact ih
  | driverTrip _ _ d k ih => obtain ⟨_, _, e⟩ := State.driverTrip_shape _ d k; rw [e]; exact ih
  | capture _ _ f ih =>
    unfold State.capture
    split
    · rw [State.latched_raise, Bool.or_eq_true]; exact .inl ih
    · exact ih
  | postOne _ _ q x o d ih =>
    unfold State.postOne
    split
    · rw [State.latched_latchOn, Bool.or_eq_true]; exact .inl ih
    · exact ih
  | _ => assumption

theorem latch_eq {a b : PortState} (h : a = { b with latches := a.latches }) (k : EventKind) (src : Nat) :
    a.latch k src = { b with latches := (a.latch k src).latches } := by
  cases a
  cases b
  simp only [PortState.mk.injEq] at h
  simp [PortState.latch, h]

/-- Writes leave a port controller alone but for its latches. -/
theorem port_eq (h : Moves K r s) (p : Port) : s.port p = { r.port p with latches := (s.port p).latches } := by
  induction h with
  | refl => rfl
  | latchOn _ q j src ih =>
    rw [State.port_latchOn]
    split
    · next e => subst e; exact latch_eq ih j src
    · exact ih
  | driverOn _ _ d ih => obtain ⟨_, _, e⟩ := State.driverOn_shape _ d; rw [e]; exact ih
  | driverTrip _ _ d k ih => obtain ⟨_, _, e⟩ := State.driverTrip_shape _ d k; rw [e]; exact ih
  | capture _ _ f ih =>
    unfold State.capture
    split
    · rw [State.port_raise]
      exact latch_eq ih _ _
    · exact ih
  | postOne _ _ q x o d ih =>
    unfold State.postOne
    split
    · rw [State.port_latchOn]
      split
      · next e => subst e; exact latch_eq ih _ _
      · exact ih
    · exact ih
  | _ => assumption

/-- Writes never empty the fault record, nor take a kind from the also-occurred set (R151). -/
theorem record (h : Moves K r s) :
    (∀ f, r.fcr.record = some f → s.fcr.record = some f) ∧ ∀ i : Nat, r.fcr.also.getLsbD i = true → s.fcr.also.getLsbD i = true := by
  induction h with
  | refl => exact ⟨fun _ g => g, fun _ g => g⟩
  | driverOn _ _ d ih => obtain ⟨_, _, e⟩ := State.driverOn_shape _ d; rw [e]; exact ih
  | driverTrip _ _ d k ih => obtain ⟨_, _, e⟩ := State.driverTrip_shape _ d k; rw [e]; exact ih
  | capture _ _ f ih =>
    unfold State.capture
    split
    · next g =>
      refine ⟨fun f' hf => ?_, ih.2⟩
      rw [ih.1 f' hf] at g
      cases g
    · exact ⟨ih.1, fun i hi => by simp only [BitVec.getLsbD_or, ih.2 i hi, Bool.true_or]⟩
  | postOne _ _ p x o d ih => obtain ⟨_, _, e⟩ := State.postOne_shape _ p x o d; rw [e]; exact ih
  | _ => assumption

end Moves

namespace State

/-! ### A command at rest -/

/-- Whatever is taken, a command comes to rest by writes within the scope of the notices, then the attention lines. -/
theorem settled_moves (s : State) (picks : Picks) : ∃ t, Moves .notices s t ∧ s.settled picks = t.updateAttention :=
  ⟨_, Moves.drain _ picks .refl, rfl⟩

@[simp] theorem updateAttention_ground (s : State) : s.updateAttention.ground = s.ground := rfl

/-- The attention lines are all that their update writes. -/
theorem port_updateAttention (s : State) (p : Port) : s.updateAttention.port p = { s.port p with attention := s.attentionOf p } := by
  cases p <;> simp [updateAttention, updateLine, port_setPort, attentionOf]

@[simp] theorem ordersOf_updateAttention (s : State) (p : Port) : s.updateAttention.ordersOf p = s.ordersOf p := rfl

/-- The attention lines follow their lists, latches and masks (R150). -/
theorem updateAttention_linesRight (s : State) : s.updateAttention.LinesRight := by
  intro p
  rw [attentionOf, port_updateAttention, ordersOf_updateAttention]
  rfl

theorem settled_linesRight (s : State) (picks : Picks) : (s.settled picks).LinesRight := updateAttention_linesRight _

/-- What a command gives rise to leaves the ground alone. -/
@[simp] theorem settled_ground (s : State) (picks : Picks) : (s.settled picks).ground = s.ground := by
  obtain ⟨t, h, e⟩ := s.settled_moves picks
  rw [e, updateAttention_ground, h.ground]

/-- With no notice under way, coming to rest is the attention lines alone. -/
theorem settled_of_no_work (s : State) (picks : Picks) (h : s.work = []) : s.settled picks = s.updateAttention := by
  unfold settled
  rw [show Config.cascadeBound = 4095 + 1 from rfl]
  unfold drain
  simp [h]

end State

end Sys2Proof.Machine
end

