-- ==== Sys2Proof/Laws/Orders.lean ====
section
/-! SUPPORT. What posting does to a port's queue and list, said once: `Posted s t p es rs` holds when `t` is `s` with the entries `es` posted in order with the records `rs`. In
a queue whose SETTLEs are right, posting the orders of a list posts `endedInTurn` of it, and nothing else of the part changes. -/

namespace Sys2Proof.Machine

/-! ### Queues -/

/-- An entry without some numbers in its settle set. -/
def Entry.less (ns : List Nat) (x : Entry) : Entry := { x with settle := x.settle.filter fun n => !ns.contains n }

@[simp] theorem Entry.less_seq (ns : List Nat) (x : Entry) : (x.less ns).seq = x.seq := rfl
@[simp] theorem Entry.less_slot (ns : List Nat) (x : Entry) : (x.less ns).slot = x.slot := rfl
@[simp] theorem Entry.less_kind (ns : List Nat) (x : Entry) : (x.less ns).kind = x.kind := rfl
@[simp] theorem Entry.less_target (ns : List Nat) (x : Entry) : (x.less ns).target = x.target := rfl
@[simp] theorem Entry.less_settle (ns : List Nat) (x : Entry) : (x.less ns).settle = x.settle.filter fun n => !ns.contains n := rfl
@[simp] theorem State.completionOf_less (s : State) (ns : List Nat) (x : Entry) (o : Ending) (d : Detail) :
    s.completionOf (x.less ns) o d = s.completionOf x o d := rfl

theorem Entry.less_nil (x : Entry) : x.less [] = x := by simp [Entry.less]

theorem Entry.less_one (n : Nat) : Entry.less [n] = fun (x : Entry) => { x with settle := x.settle.filter (· != n) } := by
  funext x
  simp only [Entry.less, List.contains_cons, List.contains_nil, Bool.or_false]
  rfl

/-- A queue without the entries of some numbers, which leave every settle set too (R125, R134). -/
def dropSeqs (ns : List Nat) (q : List Entry) : List Entry := (q.filter fun x => !ns.contains x.seq).map (Entry.less ns)

theorem dropSeqs_dropSeqs (ms ns : List Nat) (q : List Entry) : dropSeqs ns (dropSeqs ms q) = dropSeqs (ms ++ ns) q := by
  simp only [dropSeqs, List.filter_map, List.map_map, List.filter_filter]
  have h : (fun x : Entry => !ns.contains x.seq && !ms.contains x.seq) = fun x => !(ms ++ ns).contains x.seq := by
    funext x
    simp only [List.contains_eq_mem, List.mem_append, Bool.decide_or, Bool.not_or]
    exact Bool.and_comm _ _
  have g : ∀ l : List Nat, (l.filter fun n => !ms.contains n).filter (fun n => !ns.contains n) = l.filter fun n => !(ms ++ ns).contains n := by
    intro l
    rw [List.filter_filter]
    congr 1
    funext n
    simp only [List.contains_eq_mem, List.mem_append, Bool.decide_or, Bool.not_or]
    exact Bool.and_comm _ _
  rw [show ((fun x : Entry => !ns.contains x.seq) ∘ Entry.less ms) = fun x => !ns.contains x.seq from rfl, h]
  exact List.map_congr_left fun x _ => by simp only [Function.comp, Entry.less, g]

theorem takeWhile_length_le {α : Type} (P : α → Bool) (l : List α) : (l.takeWhile P).length ≤ (l.filter P).length := by
  induction l with
  | nil => exact Nat.le_refl _
  | cons x l ih =>
    by_cases hx : P x
    · rw [List.takeWhile_cons_of_pos hx, List.filter_cons_of_pos hx]
      exact Nat.succ_le_succ ih
    · rw [List.takeWhile_cons_of_neg hx]
      exact Nat.zero_le _

theorem dropSeqs_nil (q : List Entry) : dropSeqs [] q = q := by
  rw [dropSeqs, List.map_congr_left fun x _ => x.less_nil]
  simp

/-- The settle sets of a queue that stands behind entries of the numbers `seen` (R134). -/
def SettlesBehind : List Nat → List Entry → Prop
  | _, [] => True
  | seen, x :: q => (x.settle = if x.kind = .settle then seen else []) ∧ SettlesBehind (seen ++ [x.seq]) q

theorem settlesBehind_iff (seen : List Nat) (q : List Entry) :
    SettlesBehind seen q ↔ ∀ before x after, q = before ++ x :: after → x.settle = if x.kind = .settle then seen ++ before.map (·.seq) else [] := by
  induction q generalizing seen with
  | nil => exact ⟨fun _ before x after h => by simp at h, fun _ => trivial⟩
  | cons y q ih =>
    simp only [SettlesBehind, ih]
    constructor
    · rintro ⟨hy, h⟩ before x after e
      cases before with
      | nil => cases e; simpa using hy
      | cons b before =>
        cases e
        rw [h before x after rfl]
        simp
    · refine fun h => ⟨by simpa using h [] y q rfl, fun before x after e => ?_⟩
      rw [h (y :: before) x after (by rw [e]; rfl)]
      simp

theorem settlesBehind_map {f : Entry → Entry} (hf : ∀ x, (f x).settle = x.settle ∧ (f x).kind = x.kind ∧ (f x).seq = x.seq) (seen : List Nat)
    (q : List Entry) : SettlesBehind seen (q.map f) ↔ SettlesBehind seen q := by
  induction q generalizing seen with
  | nil => exact Iff.rfl
  | cons x q ih =>
    show (_ ∧ _) ↔ (_ ∧ _)
    rw [(hf x).1, (hf x).2.1, (hf x).2.2, ih]

theorem SettlesBehind.dropSeqs {seen : List Nat} {q : List Entry} (h : SettlesBehind seen q) (ns : List Nat) :
    SettlesBehind (seen.filter fun n => !ns.contains n) (dropSeqs ns q) := by
  induction q generalizing seen with
  | nil => exact h
  | cons x q ih =>
    have hq := ih h.2
    rw [List.filter_append] at hq
    by_cases hx : ns.contains x.seq
    · rw [show Machine.dropSeqs ns (x :: q) = Machine.dropSeqs ns q by simp [Machine.dropSeqs, List.contains_iff_mem.mp hx]]
      simpa [List.contains_iff_mem.mp hx] using hq
    · have hm : x.seq ∉ ns := fun g => hx (List.contains_iff_mem.mpr g)
      rw [show Machine.dropSeqs ns (x :: q) = x.less ns :: Machine.dropSeqs ns q by
        simp [Machine.dropSeqs, hm]]
      refine ⟨?_, by simpa [hm] using hq⟩
      rw [Entry.less_settle, Entry.less_kind, h.1]
      by_cases hk : x.kind = .settle <;> simp [hk]

/-- Behind an entry no SETTLE has an empty set. -/
theorem SettlesBehind.no_empty {seen : List Nat} {q : List Entry} (h : SettlesBehind seen q) (hs : seen ≠ []) :
    (q.find? fun e => e.kind == .settle && e.settle.isEmpty) = none := by
  induction q generalizing seen with
  | nil => rfl
  | cons x q ih =>
    rw [List.find?_cons_of_neg, ih h.2 (by simp)]
    intro g
    simp only [Bool.and_eq_true, beq_iff_eq, List.isEmpty_iff] at g
    rw [h.1, if_pos g.1] at g
    exact hs g.2

/-- The SETTLE with an empty set is the one at the head. -/
theorem SettlesBehind.find_empty {q : List Entry} (h : SettlesBehind [] q) :
    (q.find? fun e => e.kind == .settle && e.settle.isEmpty) = (q.head?).filter fun e => e.kind == .settle := by
  cases q with
  | nil => rfl
  | cons x q =>
    by_cases hx : x.kind = .settle
    · rw [List.find?_cons_of_pos]
      · simp [Option.filter, hx]
      · have := h.1
        rw [if_pos hx] at this
        simp [hx, this]
    · rw [List.find?_cons_of_neg (by simp [hx]), h.2.no_empty (by simp)]
      simp [Option.filter, hx]

namespace PortOrders

theorem SettlesRight.behind {o : PortOrders} (h : o.SettlesRight) : SettlesBehind [] o.queue :=
  (settlesBehind_iff [] _).mpr fun b x a e => by simpa using h.1 b x a e

theorem settlesRight_of {o : PortOrders} (h : SettlesBehind [] o.queue) (ht : ∀ x ∈ o.queue, x.kind = .settle → x.target = .port) : o.SettlesRight :=
  ⟨fun b x a e => by simpa using (settlesBehind_iff [] _).mp h b x a e, ht⟩

/-- Posting keeps the settle sets right. -/
theorem SettlesRight.dropSeqs {o : PortOrders} (h : o.SettlesRight) (ns : List Nat) (done : List Completion) :
    SettlesRight { queue := dropSeqs ns o.queue, done := done } := by
  refine settlesRight_of (by simpa using h.behind.dropSeqs ns) fun x hx hk => ?_
  obtain ⟨y, hy, rfl⟩ := List.mem_map.mp hx
  exact h.2 y (List.mem_of_mem_filter hy) hk

theorem QueueRight.dropSeqs {o : PortOrders} (h : o.QueueRight) (ns : List Nat) (done : List Completion) :
    QueueRight { queue := dropSeqs ns o.queue, done := done } := by
  refine ⟨?_, ?_, h.2.2.dropSeqs ns done⟩
  · simp only [Machine.dropSeqs, List.map_map]
    exact h.1.sublist (List.filter_sublist.map _)
  · refine Nat.le_trans ?_ h.2.1
    simp only [Machine.dropSeqs, List.filter_map, List.length_map]
    exact (List.filter_sublist.filter _).length_le

end PortOrders

/-! ### Posting (R125, R134) -/

/-- The entries of a list are posted on a port, in order, with the records of another list: nothing else of the part changes. -/
def State.Posted (s t : State) (p : Port) (es : List Entry) (rs : List Completion) : Prop :=
  t = { s with orders := t.orders, ports := t.ports } ∧ (∀ g, g ≠ p → t.ordersOf g = s.ordersOf g ∧ t.port g = s.port g) ∧
    t.ordersOf p = { queue := dropSeqs (es.map (·.seq)) (s.ordersOf p).queue, done := (s.ordersOf p).done ++ rs } ∧
    t.port p = { s.port p with latches := (t.port p).latches } ∧
    ∀ k i, t.latched p k i = (s.latched p k i || decide (k = .orderDone ∧ i < 16 ∧ ∃ x ∈ es, x.slot = i))

namespace State

variable {s t u : State} {p : Port}

theorem Posted.refl (s : State) (p : Port) : s.Posted s p [] [] :=
  ⟨rfl, fun _ _ => ⟨rfl, rfl⟩, by simp [dropSeqs_nil], rfl, fun _ _ => by simp⟩

theorem Posted.trans {es fs : List Entry} {rs qs : List Completion} (h : s.Posted t p es rs) (g : t.Posted u p fs qs) :
    s.Posted u p (es ++ fs) (rs ++ qs) := by
  obtain ⟨h1, h2, h3, h4, h5⟩ := h
  obtain ⟨g1, g2, g3, g4, g5⟩ := g
  refine ⟨by rw [g1, h1], fun q hq => ⟨(g2 q hq).1.trans (h2 q hq).1, (g2 q hq).2.trans (h2 q hq).2⟩, ?_, by rw [g4, h4], fun k i => ?_⟩
  · rw [g3, h3]
    simp only [dropSeqs_dropSeqs, List.map_append, List.append_assoc]
  · rw [g5, h5, Bool.or_assoc]
    congr 1
    rw [Bool.eq_iff_iff]
    simp only [Bool.or_eq_true, decide_eq_true_eq, List.mem_append]
    constructor
    · rintro (⟨a, b, x, hx, e⟩ | ⟨a, b, x, hx, e⟩)
      · exact ⟨a, b, x, .inl hx, e⟩
      · exact ⟨a, b, x, .inr hx, e⟩
    · rintro ⟨a, b, x, hx | hx, e⟩
      · exact .inl ⟨a, b, x, hx, e⟩
      · exact .inr ⟨a, b, x, hx, e⟩

/-- Only the numbers and the slots of the entries tell what was posted. -/
theorem Posted.congr {es fs : List Entry} {rs qs : List Completion} (h : s.Posted t p es rs)
    (e : es.map (fun x => (x.seq, x.slot)) = fs.map fun x => (x.seq, x.slot)) (er : rs = qs) : s.Posted t p fs qs := by
  subst er
  have hq : es.map (·.seq) = fs.map (·.seq) := by simpa [Function.comp_def] using congrArg (List.map Prod.fst) e
  have hl : es.map (·.slot) = fs.map (·.slot) := by simpa [Function.comp_def] using congrArg (List.map Prod.snd) e
  refine ⟨h.1, h.2.1, by rw [← hq]; exact h.2.2.1, h.2.2.2.1, fun k i => ?_⟩
  rw [h.2.2.2.2 k i]
  have : (∃ x ∈ es, x.slot = i) ↔ ∃ x ∈ fs, x.slot = i := by rw [← List.mem_map, ← List.mem_map, hl]
  simp only [this]

/-- What a record takes from the part besides its order: posting changes none of it. -/
theorem Posted.completionOf {es : List Entry} {rs : List Completion} (h : s.Posted t p es rs) (x : Entry) (o : Ending) (d : Detail) :
    t.completionOf x o d = s.completionOf x o d := by
  rw [h.1]
  rfl

/-- One posting of an entry that stands. -/
theorem postOne_posted {e : Entry} (h : s.stands p e = true) (o : Ending) (d : Detail) :
    s.Posted (s.postOne p e o d) p [e] [s.completionOf e o d] := by
  unfold postOne
  rw [if_pos h]
  refine ⟨rfl, fun g hg => ⟨?_, ?_⟩, ?_, ?_, fun k i => ?_⟩
  · rw [ordersOf_latchOn, ordersOf_setOrders_ne _ (Ne.symm hg)]
  · rw [port_latchOn, if_neg (Ne.symm hg), port_setOrders]
  · rw [ordersOf_latchOn, ordersOf_setOrders_self]
    simp only [dropSeqs, Entry.less_one, List.map_cons, List.map_nil, List.contains_cons, List.contains_nil, Bool.or_false]
    rfl
  · rw [port_latchOn, if_pos rfl, port_setOrders]
    rfl
  · rw [latched_latchOn]
    congr 1
    rw [Bool.eq_iff_iff]
    simp only [decide_eq_true_eq, List.mem_singleton]
    constructor
    · rintro ⟨-, a, b, c⟩
      exact ⟨a.symm, c, e, rfl, b⟩
    · rintro ⟨a, c, x, rfl, b⟩
      exact ⟨trivial, a.symm, b, c⟩

theorem stands_of_mem {e : Entry} (h : ∃ x ∈ (s.ordersOf p).queue, x.seq = e.seq ∧ x.slot = e.slot) : s.stands p e = true := by
  obtain ⟨x, hx, a, b⟩ := h
  exact List.any_eq_true.mpr ⟨x, hx, by simp [a, b]⟩

/-- The SETTLEs at the head of a queue complete, and no other. -/
theorem postSettled_posted (n : Nat) (s : State) (p : Port) (h : (s.ordersOf p).QueueRight)
    (hn : ((s.ordersOf p).queue.takeWhile fun x => x.kind == .settle).length ≤ n) :
    let front := (s.ordersOf p).queue.takeWhile fun x => x.kind == .settle
    s.Posted (postSettled n s p) p front (front.map fun x => s.completionOf x .done {}) := by
  induction n generalizing s with
  | zero =>
    rw [List.length_eq_zero_iff.mp (Nat.le_zero.mp hn)]
    exact .refl s p
  | succ n ih =>
    unfold postSettled
    rw [h.2.2.behind.find_empty]
    match hq : (s.ordersOf p).queue with
    | [] => exact .refl s p
    | x :: q =>
      by_cases hx : x.kind = .settle
      · have st : s.stands p x = true := stands_of_mem ⟨x, by rw [hq]; exact List.mem_cons_self, rfl, rfl⟩
        have one := postOne_posted st .done {}
        simp only [List.head?_cons, Option.filter, hx, beq_self_eq_true, if_true]
        have hnd := h.1
        rw [hq, List.map_cons, List.nodup_cons] at hnd
        have hdrop : dropSeqs [x.seq] (x :: q) = q.map (Entry.less [x.seq]) := by
          have hf : (q.filter fun y => !([x.seq].contains y.seq)) = q := List.filter_eq_self.mpr fun y hy => by
            simp only [List.contains_cons, List.contains_nil, Bool.or_false, Bool.not_eq_true', beq_eq_false_iff_ne]
            exact fun e => hnd.1 (List.mem_map.mpr ⟨y, hy, e⟩)
          rw [dropSeqs, List.filter_cons_of_neg (by simp), hf]
        have hqueue : ((s.postOne p x .done {}).ordersOf p).queue =
            q.map (Entry.less [x.seq]) := by
          rw [one.2.2.1, hq]
          exact hdrop
        have right : ((s.postOne p x .done {}).ordersOf p).QueueRight := by rw [one.2.2.1]; exact h.dropSeqs _ _
        rw [hq, List.takeWhile_cons_of_pos (by simp [hx])] at hn
        have rest := ih (s.postOne p x .done {}) right (by
          rw [hqueue, List.takeWhile_map, List.length_map]
          exact Nat.le_of_succ_le_succ hn)
        have both := one.trans rest
        rw [hqueue, List.takeWhile_map] at both
        rw [List.takeWhile_cons_of_pos (by simp [hx])]
        refine both.congr ?_ ?_ <;> simp only [List.map_map, List.map_cons, List.singleton_append, one.completionOf] <;> rfl
      · simp only [List.head?_cons, Option.filter, beq_eq_false_iff_ne.mpr hx]
        rw [List.takeWhile_cons_of_neg (by simp [hx])]
        exact .refl s p

/-- A posting changes neither the sequence number, the slot nor the kind of an entry that stays. -/
theorem stands_dropSeqs {ns : List Nat} {q : List Entry} {e : Entry} (hs : e.seq ∉ ns) (he : e ∈ q) :
    ∃ x ∈ dropSeqs ns q, x.seq = e.seq ∧ x.slot = e.slot :=
  ⟨_, List.mem_map.mpr ⟨e, List.mem_filter.mpr ⟨he, by simp [hs]⟩, rfl⟩, rfl, rfl⟩

theorem takeWhile_dropSeqs_one (e : Entry) (q : List Entry) :
    (dropSeqs [e.seq] q).takeWhile (fun x => x.kind == .settle) =
      ((q.filter fun x => x.seq != e.seq).takeWhile fun x => x.kind == .settle).map (Entry.less [e.seq]) := by
  simp only [dropSeqs, List.takeWhile_map, List.contains_cons, List.contains_nil, Bool.or_false]
  rfl

/-- A completion and the SETTLEs it empties: the entry is posted, then those at the head of the queue that is left. -/
theorem post_posted {e : Entry} (h : (s.ordersOf p).QueueRight) (st : s.stands p e = true) (o : Ending) (d : Detail) :
    let front := ((s.ordersOf p).queue.filter fun x => x.seq != e.seq).takeWhile fun x => x.kind == .settle
    s.Posted (s.post p e o d) p (e :: front) (s.completionOf e o d :: front.map fun x => s.completionOf x .done {}) := by
  intro front
  have one := postOne_posted st o d
  have right : ((s.postOne p e o d).ordersOf p).QueueRight := by rw [one.2.2.1]; exact h.dropSeqs _ _
  have hq : ((s.postOne p e o d).ordersOf p).queue = dropSeqs [e.seq] (s.ordersOf p).queue := by rw [one.2.2.1]; rfl
  have len : (((s.postOne p e o d).ordersOf p).queue.takeWhile fun x => x.kind == .settle).length ≤ 8 := by
    exact Nat.le_trans (takeWhile_length_le _ _) right.2.1
  have rest := postSettled_posted 8 (s.postOne p e o d) p right len
  have both := one.trans rest
  rw [hq, takeWhile_dropSeqs_one] at both
  refine both.congr ?_ ?_ <;> simp only [List.map_map, List.map_cons, List.singleton_append, one.completionOf] <;> rfl

/-- What ends does not read the settle sets: a queue that differs in them alone ends alike. -/
theorem endedInTurn_map {α : Type} {f : Entry → Entry} (hf : ∀ x, (f x).kind = x.kind ∧ (f x).seq = x.seq) (g : Entry → α) (hg : ∀ x, g (f x) = g x)
    (gone q : List Entry) : (endedInTurn gone (q.map f)).map g = (endedInTurn gone q).map g := by
  induction gone generalizing q with
  | nil => rfl
  | cons e more ih =>
    have h1 : ((q.map f).filter fun x => x.seq != e.seq) = (q.filter fun x => x.seq != e.seq).map f := by
      rw [List.filter_map]
      congr 2
      funext x
      simp [(hf x).2]
    have h2 : (fun x : Entry => x.kind == .settle) ∘ f = fun x => x.kind == .settle := by funext x; simp [(hf x).1]
    simp only [endedInTurn, h1, List.takeWhile_map, List.dropWhile_map, h2, List.cons_append, List.map_cons, List.map_append, List.map_map, ih]
    rw [show g ∘ f = g from funext hg]

/-- What is left of a queue after an entry and the SETTLEs it empties. -/
theorem dropSeqs_front {q : List Entry} (h : (q.map (·.seq)).Nodup) (e : Entry) :
    let others := q.filter fun x => x.seq != e.seq
    let gone := e.seq :: (others.takeWhile fun x => x.kind == .settle).map (·.seq)
    dropSeqs gone q = (others.dropWhile fun x => x.kind == .settle).map (Entry.less gone) := by
  intro others gone
  unfold dropSeqs
  congr 1
  have hf : (q.filter fun x => !gone.contains x.seq) =
      others.filter fun x => !((others.takeWhile fun x => x.kind == .settle).map (·.seq)).contains x.seq := by
    simp only [others, List.filter_filter]
    congr 1
    funext x
    simp only [gone, List.contains_cons, Bool.not_or, bne, Bool.and_comm]
    rfl
  rw [hf]
  have hn : (others.map (·.seq)).Nodup := h.sublist (List.filter_sublist.map _)
  generalize others = l at hn ⊢
  have hs : l = (l.takeWhile fun x => x.kind == .settle) ++ l.dropWhile fun x => x.kind == .settle := List.takeWhile_append_dropWhile.symm
  generalize l.takeWhile (fun x => x.kind == .settle) = a at hs ⊢
  generalize l.dropWhile (fun x => x.kind == .settle) = b at hs ⊢
  subst hs
  rw [List.map_append, List.nodup_append] at hn
  rw [List.filter_append, List.filter_eq_nil_iff.mpr, List.filter_eq_self.mpr, List.nil_append]
  · intro x hx
    simp only [Bool.not_eq_true', List.contains_eq_mem, decide_eq_false_iff_not]
    exact fun g => hn.2.2 _ g _ (List.mem_map.mpr ⟨x, hx, rfl⟩) rfl
  · intro x hx
    simp only [Bool.not_eq_true', List.contains_eq_mem, decide_eq_false_iff_not, not_not]
    exact List.mem_map.mpr ⟨x, hx, rfl⟩

/-- The orders of a list, none of them a SETTLE, are posted in turn. -/
theorem each_post_posted {gone : List Entry} (h : (s.ordersOf p).QueueRight) (hn : (gone.map (·.seq)).Nodup)
    (hg : ∀ e ∈ gone, ∃ x ∈ (s.ordersOf p).queue, x.seq = e.seq ∧ x.slot = e.slot ∧ x.kind ≠ .settle) (hk : ∀ e ∈ gone, e.kind ≠ .settle)
    (o : Ending) (d : Detail) :
    s.Posted (s.each gone fun u e => u.post p e o d) p (endedInTurn gone (s.ordersOf p).queue)
      ((endedInTurn gone (s.ordersOf p).queue).map fun x => if x.kind = .settle then s.completionOf x .done {} else s.completionOf x o d) := by
  induction gone generalizing s with
  | nil => exact .refl s p
  | cons e more ih =>
    obtain ⟨x, hx, hxs, hxl, -⟩ := hg e List.mem_cons_self
    have one := post_posted h (stands_of_mem ⟨x, hx, hxs, hxl⟩) o d
    have hq := (congrArg PortOrders.queue one.2.2.1).trans (dropSeqs_front h.1 e)
    have right : ((s.post p e o d).ordersOf p).QueueRight := by rw [one.2.2.1]; exact h.dropSeqs _ _
    rw [List.map_cons, List.nodup_cons] at hn
    have rest := ih right hn.2 (fun y hy => by
      obtain ⟨z, hz, a, b, c⟩ := hg y (List.mem_cons_of_mem _ hy)
      rw [hq]
      refine ⟨_, List.mem_map.mpr ⟨z, ?_, rfl⟩, a, b, c⟩
      have hzo : z ∈ (s.ordersOf p).queue.filter fun x => x.seq != e.seq := by
        refine List.mem_filter.mpr ⟨hz, bne_iff_ne.mpr fun g => ?_⟩
        exact hn.1 (List.mem_map.mpr ⟨y, hy, a.symm.trans g⟩)
      rw [← List.takeWhile_append_dropWhile (p := fun x : Entry => x.kind == .settle) (l := List.filter _ _)] at hzo
      rcases List.mem_append.mp hzo with g | g
      · have := List.mem_takeWhile_imp g
        simp only [beq_iff_eq] at this
        exact absurd this c
      · exact g) fun y hy => hk y (List.mem_cons_of_mem _ hy)
    rw [hq] at rest
    have both := one.trans rest
    refine both.congr ?_ ?_
    · simp only [endedInTurn, List.map_append, List.map_cons, List.cons_append]
      rw [endedInTurn_map (f := Entry.less _) (fun _ => ⟨rfl, rfl⟩) (fun x => (x.seq, x.slot)) fun _ => rfl]
    · simp only [endedInTurn, List.map_append, List.map_cons, List.cons_append, if_neg (hk e List.mem_cons_self), one.completionOf]
      rw [endedInTurn_map (f := Entry.less _) (fun _ => ⟨rfl, rfl⟩) (fun x : Entry => if x.kind = .settle then s.completionOf x .done {} else s.completionOf x o d) fun _ => rfl]
      congr 2
      refine List.map_congr_left fun x hx => ?_
      have := List.mem_takeWhile_imp hx
      simp only [beq_iff_eq] at this
      rw [if_pos this]

theorem Posted.onlyEnds {gone : List Entry} {o : Ending} {d : Detail}
    (h : s.Posted t p (endedInTurn gone (s.ordersOf p).queue)
      ((endedInTurn gone (s.ordersOf p).queue).map fun x => if x.kind = .settle then s.completionOf x .done {} else s.completionOf x o d)) :
    s.OnlyEnds t p gone o d :=
  ⟨⟨h.2.2.1, h.2.2.2.1, h.2.2.2.2⟩, h.1, h.2.1⟩

/-- Orders of a right queue, none of them a SETTLE, end in turn, and nothing else changes (R125, R134). -/
theorem each_post_onlyEnds {gone : List Entry} (h : (s.ordersOf p).QueueRight) (hn : (gone.map (·.seq)).Nodup)
    (hg : ∀ e ∈ gone, e ∈ (s.ordersOf p).queue ∧ e.kind ≠ .settle) (o : Ending) (d : Detail) :
    s.OnlyEnds (s.each gone fun u e => u.post p e o d) p gone o d :=
  (each_post_posted h hn (fun e he => ⟨e, (hg e he).1, rfl, rfl, (hg e he).2⟩) (fun e he => (hg e he).2) o d).onlyEnds

/-- One order of a right queue ends (R125, R134). -/
theorem post_onlyEnds {e : Entry} (h : (s.ordersOf p).QueueRight) (he : e ∈ (s.ordersOf p).queue) (hk : e.kind ≠ .settle) (o : Ending) (d : Detail) :
    s.OnlyEnds (s.post p e o d) p [e] o d :=
  each_post_onlyEnds (gone := [e]) h (by simp) (by simp [he, hk]) o d

/-! ### WITHDRAW, and notices that end every order on a unit (R126, R136) -/

/-- Each posting keeps the settle sets of every port right (R134). -/
theorem SettlesRight.postOne (h : s.SettlesRight) (g : Port) (e : Entry) (o : Ending) (d : Detail) : (s.postOne g e o d).SettlesRight := by
  intro i
  by_cases st : s.stands g e = true
  · have one := postOne_posted st o d
    by_cases hi : i = g
    · subst hi
      rw [one.2.2.1]
      exact (h i).dropSeqs _ _
    · rw [(one.2.1 i hi).1]
      exact h i
  · unfold State.postOne
    rw [if_neg st]
    exact h i

theorem SettlesRight.setOrders (h : s.SettlesRight) {o : PortOrders} (ho : o.SettlesRight) : (s.setOrders p o).SettlesRight := by
  intro i
  rw [ordersOf_setOrders]
  split
  · exact ho
  · exact h i

theorem filter_right {t : Target} (h : (s.ordersOf p).QueueRight) (ht : t ≠ .port) (P : Entry → Bool) :
    let gone := (s.ordersOf p).queue.filter fun e => P e && e.target == t
    (gone.map (·.seq)).Nodup ∧ ∀ e ∈ gone, e ∈ (s.ordersOf p).queue ∧ e.kind ≠ .settle := by
  refine ⟨h.1.sublist (List.filter_sublist.map _), fun e he => ?_⟩
  obtain ⟨hm, hp⟩ := List.mem_filter.mp he
  simp only [Bool.and_eq_true, beq_iff_eq] at hp
  exact ⟨hm, fun hk => ht (hp.2.symm.trans (h.2.2.2 e hm hk))⟩

/-- What WITHDRAW does to a right queue (R136). -/
theorem withdrawAll_onlyEnds {t : Target} (h : (s.ordersOf p).QueueRight) (ht : t ≠ .port) :
    s.OnlyEnds (s.withdrawAll p t) p (s.waitingOn p t) .withdrawn {} :=
  have g := filter_right h ht fun e => !e.active
  each_post_onlyEnds h g.1 g.2 _ _

/-- What the end of every order on a unit does to a right queue (R126). -/
theorem disturbAll_onlyEnds {t : Target} (h : (s.ordersOf p).QueueRight) (ht : t ≠ .port) :
    s.OnlyEnds (s.disturbAll p t) p ((s.ordersOf p).queue.filter fun e => e.target == t) .disturbed {} :=
  have g := filter_right h ht fun _ => true
  each_post_onlyEnds h (by simpa using g.1) (by simpa using g.2) _ _

/-- Behind an order that stays, no SETTLE is emptied. -/
theorem endedInTurn_behind {x : Entry} (hx : x.kind ≠ .settle) (gone q : List Entry) (hg : ∀ e ∈ gone, x.seq ≠ e.seq) :
    endedInTurn gone (x :: q) = gone := by
  induction gone generalizing q with
  | nil => rfl
  | cons e more ih =>
    have he : (x.seq != e.seq) = true := bne_iff_ne.mpr (hg e List.mem_cons_self)
    have hk : (x.kind == .settle) = false := beq_eq_false_iff_ne.mpr hx
    have hf : ((x :: q).filter fun y => y.seq != e.seq) = x :: q.filter fun y => y.seq != e.seq := List.filter_cons_of_pos he
    simp only [endedInTurn, hf, List.takeWhile_cons, List.dropWhile_cons, hk, Bool.false_eq_true, if_false]
    rw [ih _ fun y hy => hg y (List.mem_cons_of_mem _ hy)]
    rfl

/-- Without SETTLEs the orders of a list are all that ends. -/
theorem endedInTurn_of_no_settle (gone q : List Entry) (hq : ∀ x ∈ q, x.kind ≠ .settle) : endedInTurn gone q = gone := by
  induction gone generalizing q with
  | nil => rfl
  | cons e more ih =>
    have h : ∀ x ∈ q.filter fun x => x.seq != e.seq, (x.kind == .settle) = false := fun x hx =>
      beq_eq_false_iff_ne.mpr (hq x (List.mem_of_mem_filter hx))
    have ht : ((q.filter fun x => x.seq != e.seq).takeWhile fun x => x.kind == .settle) = [] := by
      generalize q.filter (fun x => x.seq != e.seq) = l at h
      cases l with
      | nil => rfl
      | cons y l => rw [List.takeWhile_cons_of_neg (by rw [h y List.mem_cons_self]; decide)]
    simp only [endedInTurn, ht, List.singleton_append]
    rw [ih _ fun x hx => hq x (List.mem_of_mem_filter ((List.dropWhile_sublist _).subset hx))]

/-! ### Activation in turn (R124) -/

/-- The entries of a port that wait for a target. -/
def waits (s : State) (p : Port) (t : Target) : Nat := (s.waitingOn p t).length

theorem waits_mapQueue (g : Entry → Entry) (hg : ∀ x, (g x).target = x.target ∧ (x.active = true → (g x).active = true)) (s : State) (p : Port)
    (t : Target) : (s.setOrders p { s.ordersOf p with queue := (s.ordersOf p).queue.map g }).waits p t ≤ s.waits p t := by
  unfold waits waitingOn
  rw [ordersOf_setOrders_self]
  simp only [List.filter_map, List.length_map]
  refine (List.monotone_filter_right _ fun x hx => ?_).length_le
  simp only [Function.comp, Bool.and_eq_true, Bool.not_eq_true', beq_iff_eq] at hx ⊢
  refine ⟨?_, (hg x).1 ▸ hx.2⟩
  cases ha : x.active
  · rfl
  · exact absurd ((hg x).2 ha) (by simp [hx.1])

theorem waits_postOne (s : State) (p : Port) (e : Entry) (o : Ending) (d : Detail) (t : Target) : (s.postOne p e o d).waits p t ≤ s.waits p t := by
  unfold waits waitingOn
  by_cases h : s.stands p e = true
  · rw [(postOne_posted h o d).2.2.1]
    simp only [dropSeqs, List.filter_map, List.length_map]
    exact (List.filter_sublist.filter _).length_le
  · unfold postOne
    rw [if_neg h]

theorem waits_postSettled (n : Nat) (s : State) (p : Port) (t : Target) : (postSettled n s p).waits p t ≤ s.waits p t := by
  induction n generalizing s with
  | zero => exact Nat.le_refl _
  | succ n ih =>
    unfold postSettled
    split
    · exact Nat.le_trans (ih _) (waits_postOne ..)
    · exact Nat.le_refl _

theorem waits_conclude (s : State) (p : Port) (e : Entry) (v : Verdict) (t : Target) : (s.conclude p e v).waits p t ≤ s.waits p t := by
  unfold conclude
  split
  · exact Nat.le_refl _
  · exact waits_mapQueue _ (fun x => by split <;> exact ⟨rfl, id⟩) s p t
  · exact waits_mapQueue _ (fun x => by split <;> exact ⟨rfl, id⟩) s p t
  · exact Nat.le_trans (waits_postSettled ..) (waits_postOne ..)

/-- The effect of an order writes no queue. -/
theorem orderEffect_orders (s : State) (p : Port) (e : Entry) : (s.orderEffect p e).1.orders = s.orders :=
  Moves.orders_eq (K := { drivers := true, pumps := true, barriers := true, feeds := true, coil := true }) rfl
    (Moves.orderEffect rfl rfl rfl rfl rfl .refl p e)

/-- An entry that becomes ACTIVE waits no longer. -/
theorem waits_activateEntry {e : Entry} {t : Target} (h : (s.ordersOf p).nextOn t = some e) : (s.activateEntry p e).waits p t < s.waits p t := by
  unfold activateEntry
  refine Nat.lt_of_le_of_lt (waits_conclude ..) ?_
  unfold waits waitingOn ordersOf
  rw [orderEffect_orders]
  show ((((s.modEntry p e.seq _).ordersOf p).queue).filter _).length < _
  unfold modEntry
  rw [ordersOf_setOrders_self]
  have hm := List.mem_of_find?_eq_some h
  have hp := List.find?_some h
  simp only [List.filter_map, List.length_map]
  show _ < ((s.ordersOf p).queue.filter _).length
  generalize (s.ordersOf p).queue = q at hm
  have hs : (q.filter ((fun x : Entry => !x.active && x.target == t) ∘ fun x =>
      if x.seq = e.seq then { x with active := true, mark := false } else x)) =
      (q.filter fun x => !x.active && x.target == t).filter fun x => x.seq != e.seq := by
    rw [List.filter_filter]
    congr 1
    funext x
    by_cases g : x.seq = e.seq <;> simp [Function.comp, g]
  rw [hs]
  exact List.length_filter_lt_length_iff_exists.mpr ⟨e, List.mem_filter.mpr ⟨hm, hp⟩, by simp⟩

/-- Activation comes to its end within as many turns as entries wait. -/
theorem advance_succ (n : Nat) (s : State) (p : Port) (t : Target) (h : s.waits p t ≤ n) : advance (n + 1) s p t = advance n s p t := by
  induction n generalizing s with
  | zero =>
    have hw : (s.ordersOf p).nextOn t = none := by
      have : s.waitingOn p t = [] := List.length_eq_zero_iff.mp (Nat.le_zero.mp h)
      exact List.find?_eq_none.mpr fun x hx hb => List.filter_eq_nil_iff.mp this x hx hb
    unfold advance
    rw [hw]
    split <;> rfl
  | succ n ih =>
    rw [advance]
    conv_rhs => rw [advance]
    split
    · rfl
    · split
      · next e he => exact ih _ (Nat.le_of_lt_succ (Nat.lt_of_lt_of_le (waits_activateEntry he) h))
      · rfl

end State

/-- Writes keep the settle sets of every port right (R134). -/
theorem Moves.settlesRight {K : Scope} {r s : State} (h : Moves K r s) (hr : r.SettlesRight) : s.SettlesRight := by
  induction h with
  | refl => exact hr
  | driverOn _ _ d ih => obtain ⟨_, _, e⟩ := State.driverOn_shape _ d; rw [e]; exact ih
  | driverTrip _ _ d k ih => obtain ⟨_, _, e⟩ := State.driverTrip_shape _ d k; rw [e]; exact ih
  | capture _ _ f ih => obtain ⟨_, _, e⟩ := State.capture_shape _ f; rw [e]; exact ih
  | postOne _ _ p x o d ih => exact ih.postOne p x o d
  | mapQueue _ _ p g hg ih =>
    have hs : ∀ x, (g x).settle = x.settle ∧ (g x).kind = x.kind ∧ (g x).seq = x.seq := fun x =>
      ⟨(hg x).2, congrArg (·.2.2.2.1) (hg x).1, congrArg (·.2.1) (hg x).1⟩
    refine ih.setOrders (PortOrders.settlesRight_of ((settlesBehind_map hs _ _).mpr (ih p).behind) fun x hx hk => ?_)
    obtain ⟨y, hy, rfl⟩ := List.mem_map.mp hx
    exact (congrArg (·.2.2.2.2.1) (hg y).1).trans ((ih p).2 y hy ((hs y).2.1.symm.trans hk))
  | _ => assumption

end Sys2Proof.Machine
end

