-- ==== Sys2Proof/WellFormed.lean ====
section
/-! DEFINITION. The commands the manual gives the part: the few whose operands it bounds beyond their types. -/

namespace Sys2Proof

/-- A loop current that reads as a code in 0..4095 (R1), in µA. -/
def currentInRange (microamps : Nat) : Bool := decide (microamps ≤ 25006)

/-- Whether a command's operands are ones the manual allows: loop currents within the code range of R1, and a stored image that passes its check
whenever its read-back agrees (R156). Every other command takes any operand; a request with a bad one is refused in its reply (R143). -/
def Instr.wellFormed : Instr → Bool
  | .samplingInstant currents => currents.toList.all currentInRange
  | .writeEnd agrees sound _ _ => !agrees || sound
  | .powerOn _ _ => true
  | .scan _ _ => true
  | .shorted _ _ => true
  | .openLoad _ _ => true
  | .sweep _ => true
  | .provingTimerExpiry _ _ => true
  | .minRunTimerExpiry _ _ => true
  | .noFlowTimerExpiry _ _ => true
  | .minOffTimerExpiry _ _ => true
  | .hourReload _ => true
  | .incrementTimerExpiry _ _ => true
  | .sealTimerExpiry _ _ => true
  | .pulseEnd _ => true
  | .feedbackCheck _ => true
  | .rechargeTimerExpiry _ => true
  | .deferralExpiry _ _ => true
  | .preArmExpiry _ => true
  | .ageTimerExpiry _ => true
  | .byteReceived _ _ _ => true
  | .gap _ => true
  | .skippingQuiet _ => true
  | .replySent _ _ _ => true
  | .lineBreak _ _ => true
  | .breakEnd _ => true
  | .picture _ _ _ => true
  | .state _ _ _ _ => true
  | .configGet _ _ _ _ => true
  | .fault _ _ => true
  | .probeRaw _ _ _ => true
  | .events _ _ => true
  | .mask _ _ _ => true
  | .faultClear _ _ => true
  | .pumpStart _ _ _ _ _ _ _ => true
  | .pumpStop _ _ _ _ _ _ _ => true
  | .barrierClose _ _ _ _ _ _ _ => true
  | .barrierOpen _ _ _ _ _ _ _ => true
  | .barrierHome _ _ _ _ _ _ _ => true
  | .feedShed _ _ _ _ _ _ _ => true
  | .feedRestore _ _ _ _ _ _ _ => true
  | .feedDefer _ _ _ _ _ _ _ => true
  | .settle _ _ _ _ _ _ _ => true
  | .withdraw _ _ _ _ => true
  | .abort _ _ _ _ _ => true
  | .collect _ _ => true
  | .configSet _ _ _ _ _ _ => true
  | .lockout _ _ _ _ _ => true
  | .unlock _ _ _ _ _ => true
  | .clearFailure _ _ _ _ _ => true
  | .restart _ _ => true
  | .powerLoss => true

end Sys2Proof
end

