-- ==== Sys2Proof/Laws/PerInstr.lean ====
section
/-! SUPPORT. The well-formedness of every command, constructor by constructor: what `Instr.wellFormed` asks is what the manual bounds (R1, R156). -/

namespace Sys2Proof.Laws.WellFormedIff

/-- A command is well formed exactly when its loop currents read as codes 0..4095 (R1), and an image whose read-back agrees passes its check
(R156). -/
def Statement (i : Instr) : Prop :=
  i.wellFormed = true ↔
    (∀ currents : Vector Nat 8, i = .samplingInstant currents → ∀ k : Fin 8, currents[k] ≤ 25006) ∧
      ∀ agrees sound contacts picks, i = .writeEnd agrees sound contacts picks → agrees = true → sound = true

theorem powerOn (contacts : BitVec 52) (picks : Picks) : Statement (.powerOn contacts picks) :=
  ⟨fun _ => ⟨nofun, nofun⟩, fun _ => rfl⟩
theorem samplingInstant (currents : Vector Nat 8) : Statement (.samplingInstant currents) := by
  unfold Statement Instr.wellFormed currentInRange
  constructor
  · intro h
    refine ⟨?_, by simp⟩
    intro c hc k
    obtain rfl : currents = c := by simpa using hc
    simpa using List.all_eq_true.mp h currents[k] (by simp)
  · intro h
    rw [List.all_eq_true]
    intro x hx
    obtain ⟨k, hk, rfl⟩ := List.getElem_of_mem hx
    have h8 : k < 8 := by simpa using hk
    simpa using h.1 currents rfl ⟨k, h8⟩
theorem scan (readings : BitVec 52) (picks : Picks) : Statement (.scan readings picks) :=
  ⟨fun _ => ⟨nofun, nofun⟩, fun _ => rfl⟩
theorem shorted (output : Fin 44) (picks : Picks) : Statement (.shorted output picks) :=
  ⟨fun _ => ⟨nofun, nofun⟩, fun _ => rfl⟩
theorem openLoad (output : Fin 44) (picks : Picks) : Statement (.openLoad output picks) :=
  ⟨fun _ => ⟨nofun, nofun⟩, fun _ => rfl⟩
theorem sweep (picks : Picks) : Statement (.sweep picks) :=
  ⟨fun _ => ⟨nofun, nofun⟩, fun _ => rfl⟩
theorem provingTimerExpiry (pump : Fin 8) (picks : Picks) : Statement (.provingTimerExpiry pump picks) :=
  ⟨fun _ => ⟨nofun, nofun⟩, fun _ => rfl⟩
theorem minRunTimerExpiry (pump : Fin 8) (picks : Picks) : Statement (.minRunTimerExpiry pump picks) :=
  ⟨fun _ => ⟨nofun, nofun⟩, fun _ => rfl⟩
theorem noFlowTimerExpiry (pump : Fin 8) (picks : Picks) : Statement (.noFlowTimerExpiry pump picks) :=
  ⟨fun _ => ⟨nofun, nofun⟩, fun _ => rfl⟩
theorem minOffTimerExpiry (pump : Fin 8) (picks : Picks) : Statement (.minOffTimerExpiry pump picks) :=
  ⟨fun _ => ⟨nofun, nofun⟩, fun _ => rfl⟩
theorem hourReload (picks : Picks) : Statement (.hourReload picks) :=
  ⟨fun _ => ⟨nofun, nofun⟩, fun _ => rfl⟩
theorem incrementTimerExpiry (barrier : Fin 6) (picks : Picks) : Statement (.incrementTimerExpiry barrier picks) :=
  ⟨fun _ => ⟨nofun, nofun⟩, fun _ => rfl⟩
theorem sealTimerExpiry (barrier : Fin 6) (picks : Picks) : Statement (.sealTimerExpiry barrier picks) :=
  ⟨fun _ => ⟨nofun, nofun⟩, fun _ => rfl⟩
theorem pulseEnd (picks : Picks) : Statement (.pulseEnd picks) :=
  ⟨fun _ => ⟨nofun, nofun⟩, fun _ => rfl⟩
theorem feedbackCheck (picks : Picks) : Statement (.feedbackCheck picks) :=
  ⟨fun _ => ⟨nofun, nofun⟩, fun _ => rfl⟩
theorem rechargeTimerExpiry (picks : Picks) : Statement (.rechargeTimerExpiry picks) :=
  ⟨fun _ => ⟨nofun, nofun⟩, fun _ => rfl⟩
theorem deferralExpiry (feed : Fin 12) (picks : Picks) : Statement (.deferralExpiry feed picks) :=
  ⟨fun _ => ⟨nofun, nofun⟩, fun _ => rfl⟩
theorem preArmExpiry (feed : Fin 12) : Statement (.preArmExpiry feed) :=
  ⟨fun _ => ⟨nofun, nofun⟩, fun _ => rfl⟩
theorem ageTimerExpiry (picks : Picks) : Statement (.ageTimerExpiry picks) :=
  ⟨fun _ => ⟨nofun, nofun⟩, fun _ => rfl⟩
theorem writeEnd (agrees : Bool) (sound : Bool) (contacts : BitVec 52) (picks : Picks) : Statement (.writeEnd agrees sound contacts picks) := by
  constructor
  · intro h
    refine ⟨by simp, ?_⟩
    intro a b c p hc ha
    injection hc with h1 h2
    subst h1 h2
    simpa [Instr.wellFormed, ha] using h
  · intro h
    have := h.2 agrees sound contacts picks rfl
    cases agrees <;> simp_all [Instr.wellFormed]
theorem byteReceived (port : Port) (byte : Byte) (framingError : Bool) : Statement (.byteReceived port byte framingError) :=
  ⟨fun _ => ⟨nofun, nofun⟩, fun _ => rfl⟩
theorem gap (port : Port) : Statement (.gap port) :=
  ⟨fun _ => ⟨nofun, nofun⟩, fun _ => rfl⟩
theorem skippingQuiet (port : Port) : Statement (.skippingQuiet port) :=
  ⟨fun _ => ⟨nofun, nofun⟩, fun _ => rfl⟩
theorem replySent (port : Port) (contacts : BitVec 52) (picks : Picks) : Statement (.replySent port contacts picks) :=
  ⟨fun _ => ⟨nofun, nofun⟩, fun _ => rfl⟩
theorem lineBreak (port : Port) (picks : Picks) : Statement (.lineBreak port picks) :=
  ⟨fun _ => ⟨nofun, nofun⟩, fun _ => rfl⟩
theorem breakEnd (port : Port) : Statement (.breakEnd port) :=
  ⟨fun _ => ⟨nofun, nofun⟩, fun _ => rfl⟩
theorem picture (port : Port) (tag : Byte) (sump : Byte) : Statement (.picture port tag sump) :=
  ⟨fun _ => ⟨nofun, nofun⟩, fun _ => rfl⟩
theorem state (port : Port) (tag : Byte) (cls idx : Byte) : Statement (.state port tag cls idx) :=
  ⟨fun _ => ⟨nofun, nofun⟩, fun _ => rfl⟩
theorem configGet (port : Port) (tag : Byte) (item unit : Byte) : Statement (.configGet port tag item unit) :=
  ⟨fun _ => ⟨nofun, nofun⟩, fun _ => rfl⟩
theorem fault (port : Port) (tag : Byte) : Statement (.fault port tag) :=
  ⟨fun _ => ⟨nofun, nofun⟩, fun _ => rfl⟩
theorem probeRaw (port : Port) (tag : Byte) (probe : Byte) : Statement (.probeRaw port tag probe) :=
  ⟨fun _ => ⟨nofun, nofun⟩, fun _ => rfl⟩
theorem events (port : Port) (tag : Byte) : Statement (.events port tag) :=
  ⟨fun _ => ⟨nofun, nofun⟩, fun _ => rfl⟩
theorem mask (port : Port) (tag : Byte) (map : BitVec 24) : Statement (.mask port tag map) :=
  ⟨fun _ => ⟨nofun, nofun⟩, fun _ => rfl⟩
theorem faultClear (port : Port) (tag : Byte) : Statement (.faultClear port tag) :=
  ⟨fun _ => ⟨nofun, nofun⟩, fun _ => rfl⟩
theorem pumpStart (port : Port) (tag : Byte) (cls idx urgency : Byte) (seconds : Word16) (picks : Picks) : Statement (.pumpStart port tag cls idx urgency seconds picks) :=
  ⟨fun _ => ⟨nofun, nofun⟩, fun _ => rfl⟩
theorem pumpStop (port : Port) (tag : Byte) (cls idx urgency : Byte) (seconds : Word16) (picks : Picks) : Statement (.pumpStop port tag cls idx urgency seconds picks) :=
  ⟨fun _ => ⟨nofun, nofun⟩, fun _ => rfl⟩
theorem barrierClose (port : Port) (tag : Byte) (cls idx urgency : Byte) (seconds : Word16) (picks : Picks) : Statement (.barrierClose port tag cls idx urgency seconds picks) :=
  ⟨fun _ => ⟨nofun, nofun⟩, fun _ => rfl⟩
theorem barrierOpen (port : Port) (tag : Byte) (cls idx urgency : Byte) (seconds : Word16) (picks : Picks) : Statement (.barrierOpen port tag cls idx urgency seconds picks) :=
  ⟨fun _ => ⟨nofun, nofun⟩, fun _ => rfl⟩
theorem barrierHome (port : Port) (tag : Byte) (cls idx urgency : Byte) (seconds : Word16) (picks : Picks) : Statement (.barrierHome port tag cls idx urgency seconds picks) :=
  ⟨fun _ => ⟨nofun, nofun⟩, fun _ => rfl⟩
theorem feedShed (port : Port) (tag : Byte) (cls idx urgency : Byte) (seconds : Word16) (picks : Picks) : Statement (.feedShed port tag cls idx urgency seconds picks) :=
  ⟨fun _ => ⟨nofun, nofun⟩, fun _ => rfl⟩
theorem feedRestore (port : Port) (tag : Byte) (cls idx urgency : Byte) (seconds : Word16) (picks : Picks) : Statement (.feedRestore port tag cls idx urgency seconds picks) :=
  ⟨fun _ => ⟨nofun, nofun⟩, fun _ => rfl⟩
theorem feedDefer (port : Port) (tag : Byte) (cls idx urgency : Byte) (seconds : Word16) (picks : Picks) : Statement (.feedDefer port tag cls idx urgency seconds picks) :=
  ⟨fun _ => ⟨nofun, nofun⟩, fun _ => rfl⟩
theorem settle (port : Port) (tag : Byte) (cls idx urgency : Byte) (seconds : Word16) (picks : Picks) : Statement (.settle port tag cls idx urgency seconds picks) :=
  ⟨fun _ => ⟨nofun, nofun⟩, fun _ => rfl⟩
theorem withdraw (port : Port) (tag : Byte) (cls idx : Byte) : Statement (.withdraw port tag cls idx) :=
  ⟨fun _ => ⟨nofun, nofun⟩, fun _ => rfl⟩
theorem abort (port : Port) (tag : Byte) (cls idx : Byte) (picks : Picks) : Statement (.abort port tag cls idx picks) :=
  ⟨fun _ => ⟨nofun, nofun⟩, fun _ => rfl⟩
theorem collect (port : Port) (tag : Byte) : Statement (.collect port tag) :=
  ⟨fun _ => ⟨nofun, nofun⟩, fun _ => rfl⟩
theorem configSet (port : Port) (tag : Byte) (item unit : Byte) (value : Word16) (picks : Picks) : Statement (.configSet port tag item unit value picks) :=
  ⟨fun _ => ⟨nofun, nofun⟩, fun _ => rfl⟩
theorem lockout (port : Port) (tag : Byte) (cls idx : Byte) (picks : Picks) : Statement (.lockout port tag cls idx picks) :=
  ⟨fun _ => ⟨nofun, nofun⟩, fun _ => rfl⟩
theorem unlock (port : Port) (tag : Byte) (cls idx : Byte) (picks : Picks) : Statement (.unlock port tag cls idx picks) :=
  ⟨fun _ => ⟨nofun, nofun⟩, fun _ => rfl⟩
theorem clearFailure (port : Port) (tag : Byte) (cls idx : Byte) (picks : Picks) : Statement (.clearFailure port tag cls idx picks) :=
  ⟨fun _ => ⟨nofun, nofun⟩, fun _ => rfl⟩
theorem restart (port : Port) (tag : Byte) : Statement (.restart port tag) :=
  ⟨fun _ => ⟨nofun, nofun⟩, fun _ => rfl⟩
theorem powerLoss : Statement .powerLoss :=
  ⟨fun _ => ⟨nofun, nofun⟩, fun _ => rfl⟩

end Sys2Proof.Laws.WellFormedIff
end

