-- ==== Sys2Proof/Tests/Slice0.lean ====
section
/-! SUPPORT. Tests of the model on small states: values worked out in the manual, one or two steps per command, and for each statement with hypotheses a state that
meets them. -/

namespace Sys2Proof.Tests

set_option Elab.async false

open Sys2Proof.Machine

/-! ### The states the tests start from -/

/-- The settings of section 2.10, with one unit of each class in service. -/
def benchCfg : Cfg :=
  let c := Cfg.factory
  { c with
    sumps := c.sumps.set 0 { enable := true, floor := 650 }
    probes := c.probes.set 0 { enable := true }
    pumps := c.pumps.set 0 { enable := true, flow := 25 }
    barriers := c.barriers.set 0 { enable := true, closedCount := 40, interval := 500 }
    feeds := c.feeds.set 0 { enable := true, rank := 0 }
    rules := c.rules.set 0 { enable := true, threshold := 500 } }

/-- The part after reset with those settings. -/
def bench : State := { State.reset with cfg := benchCfg }

/-- The state a command leaves. -/
def after (c : Instr) (s : State) : State :=
  match exec c s with
  | .next t => t
  | .fault f => nomatch f
  | .refused _ => s

/-- A state with one contact accepted MADE. -/
def made (k : Fin 52) (s : State) : State := { s with contacts := s.contacts.set k { accepted := true } }

def pump (p : Pump) : State := bench.setPump 0 p
def barrier (b : Barrier) : State := bench.setBarrier 0 b
def feed (f : Feed) : State := bench.setFeed 0 f
def probe (p : Probe) : State := bench.setProbe 0 p
def line (p : PortState) : State := bench.setPort .a p
def lockedPump (p : Pump) : State := { pump p with locks := { Locks.none with pumps := Locks.none.pumps.set 0 true } }
def lockedBarrier (b : Barrier) : State := { barrier b with locks := { Locks.none with barriers := Locks.none.barriers.set 0 true } }

/-- An order of Port B for pump M0. -/
def order : Entry := { slot := 0, seq := 7, tag := 1, kind := .pumpStart, target := .pump 0, urgent := false, active := true }

/-! ### Well-formedness -/

/-- A loop current that no code of R1 covers (25,007 µA) is refused; 25,006 µA is not. -/
theorem test_wellFormed_refuses_current : (Instr.samplingInstant (Vector.replicate 8 25007)).wellFormed = false := by decide +kernel
theorem test_wellFormed_takes_current : (Instr.samplingInstant (Vector.replicate 8 25006)).wellFormed = true := by decide +kernel
/-- A read-back that agrees belongs to an image that passes its check. -/
theorem test_wellFormed_refuses_write : (Instr.writeEnd true false 0 []).wellFormed = false := by decide

/-! ### Worked values of the manual -/

/-- R3's conversion examples. -/
theorem test_conversion :
    sampleLevel { span := 3000, offset := 0 } 1966 = 1500 ∧ sampleLevel { span := 1500, offset := 300 } 2000 = 1069 ∧
      sampleLevel { span := 2000, offset := 250 } 600 = 250 ∧ sampleLevel { span := 4000, offset := 2500 } 3300 = 6000 ∧
      codeValid 589 = false ∧ codeValid 590 = true ∧ codeValid 3440 = true ∧ codeValid 3441 = false := by decide
/-- The table under R24. -/
theorem test_volume :
    [0, 900, 1188, 1200, 1201, 1500, 6000].map (volume benchCfg.sumps[0]) = [0, 3600, 4752, 4800, 5450, 199800, 3124800] := by decide +kernel
/-- Section 2.10, case 1: inflow 33, and arrivals at 120 s and 24,495 s. -/
theorem test_case_one :
    inflowOf benchCfg.sumps[0] ((List.range 16).map fun n => ⟨900 + 4 * n, false, 50⟩) = 33 ∧
      arrivalTime benchCfg.sumps[0] (some 960) true 8 1200 = 120 ∧ arrivalTime benchCfg.sumps[0] (some 960) true 8 1500 = 24495 := by decide +kernel
/-- Section 2.10, cases 2 and 3: a net rise that is not positive gives NONE, and 693 s to the brim at 10 s. -/
theorem test_case_two :
    arrivalTime benchCfg.sumps[0] (some 956) true (-17) 1200 = 65535 ∧
      inflowOf benchCfg.sumps[0] [⟨500, false, 0⟩, ⟨502, false, 0⟩, ⟨505, false, 0⟩, ⟨507, false, 0⟩] = 4 ∧
      arrivalTime benchCfg.sumps[0] (some 507) true 4 1200 = 693 := by decide +kernel
/-- The check value of the CRC of R141 over the digits 1 to 9. -/
theorem test_crc : crc16 [0x31, 0x32, 0x33, 0x34, 0x35, 0x36, 0x37, 0x38, 0x39] = 0x29B1 := by decide +kernel
/-- R86: the overtravel is an eighth of the closed count, rounded up. -/
theorem test_home_limit : homeLimit 120 = 135 ∧ homeLimit 40 = 45 ∧ homeLimit 1 = 2 := by decide

/-! ### Bodies written out byte by byte (sections 9.2 and 9.7) -/

theorem test_body_events : decodeRequest .a [0x03, 0x21, 0x00] = some (.events .a 0x21) := by decide
theorem test_body_mask : decodeRequest .b [0x04, 0x22, 0x1F, 0x02, 0x03] = some (.mask .b 0x22 0x1F0203) := by decide
theorem test_body_pump_stop : decodeRequest .b [0x10, 0x23, 0x01, 0x02, 0x06, 0x01, 0x00, 0x00] = some (.pumpStop .b 0x23 2 6 1 0 []) := by decide
theorem test_body_feed_defer : decodeRequest .a [0x10, 0x24, 0x07, 0x04, 0x0B, 0x00, 0x02, 0x58] = some (.feedDefer .a 0x24 4 11 0 600 []) := by decide
theorem test_body_withdraw : decodeRequest .c [0x11, 0x25, 0x03, 0x05] = some (.withdraw .c 0x25 3 5) := by decide
theorem test_body_config_set : decodeRequest .c [0x21, 0x26, 0x53, 0x0F, 0xFF, 0xFE] = some (.configSet .c 0x26 0x53 15 (-2) []) := by decide
theorem test_body_lockout : decodeRequest .c [0x22, 0x27, 0x02, 0x04] = some (.lockout .c 0x27 2 4 []) := by decide
/-- A wrong length, an unknown code and an order kind 9 spell no request (R143). -/
theorem test_body_refused :
    decodeRequest .a [0x03, 0x21] = none ∧ decodeRequest .a [0x07, 0x21, 0x00] = none ∧
      decodeRequest .a [0x10, 0x21, 0x09, 0x02, 0x00, 0x00, 0x00, 0x00] = none := by decide

/-! ### One step of each command -/

theorem test_power_on : (after (.powerOn (1 <<< 40) []) bench).feeds[0].state = .live ∧ (after (.powerOn 0 []) bench).latched .b .restarted 0 = true := by
  decide +kernel
theorem test_power_loss : (after .powerLoss (pump { state := .running })).powered = false := by decide +kernel
/-- 4 mA gives code 655 and the lowest level; the eighth valid sample in a row makes the probe GOOD. -/
theorem test_sampling :
    (after (.samplingInstant (Vector.replicate 8 4000)) (probe { state := .unproven, validRun := 7, ring := List.replicate 7 0 })).probes[0].state = .good := by
  decide +kernel
theorem test_sampling_lost :
    (after (.samplingInstant (Vector.replicate 8 3600)) (probe { state := .good, invalidRun := 3, ring := List.replicate 8 0 })).probes[0].state = .lost := by
  decide +kernel
/-- The third scan that reads MADE proves the flow of a starting pump. -/
theorem test_scan_proves :
    (after (.scan 1 []) { pump { state := .starting, proving := some 9 } with contacts := bench.contacts.set 0 ⟨false, 2⟩ }).pumps[0].state = .running := by
  decide +kernel
theorem test_shorted :
    (after (.shorted 0 []) { pump { state := .starting } with drivers := bench.drivers.set 0 ⟨true, true, none⟩ }).pumps[0].failure = some .driverFault := by
  decide +kernel
theorem test_open_load : (after (.openLoad 0 []) { bench with drivers := bench.drivers.set 0 ⟨true, true, none⟩ }).drivers[0].latch = some .openLoad := by
  decide +kernel
theorem test_sweep : (after (.sweep []) (probe { state := .good, ring := List.replicate 8 900 })).sumps[0].picture.level = some 900 := by decide +kernel
/-- At the HH level the sump is in FLOOD. -/
theorem test_sweep_flood : (after (.sweep []) (probe { state := .good, ring := List.replicate 8 1150 })).sumps[0].state = .flood := by decide +kernel
theorem test_proving : (after (.provingTimerExpiry 0 []) (pump { state := .starting, proving := some 9 })).pumps[0].failure = some .pumpNotProved := by
  decide +kernel
theorem test_min_run : (after (.minRunTimerExpiry 0 []) (pump { state := .running, minRun := some 1 })).pumps[0].state = .rest := by decide +kernel
theorem test_no_flow : (after (.noFlowTimerExpiry 0 []) (pump { state := .running, noFlow := some 1 })).fcr.record.map (·.kind) = some .pumpNoFlow := by
  decide +kernel
/-- A wanted pump whose rest ends is granted a free slot at once. -/
theorem test_min_off : (after (.minOffTimerExpiry 0 []) (pump { state := .rest, minOff := some 1, demand := { auto := true } })).pumps[0].state = .starting := by
  decide +kernel
theorem test_hour_reload : (after (.hourReload []) (pump { budget := 0 })).pumps[0].budget = 6 := by decide +kernel
/-- The increment that completes the home limit of 45 faults the barrier. -/
theorem test_increment :
    (after (.incrementTimerExpiry 0 []) (barrier { state := .closing, travel := 44, increment := some 1, closure := { auto := true } })).barriers[0].state = .fault := by
  decide +kernel
theorem test_increment_position :
    (after (.incrementTimerExpiry 0 [])
      (barrier { state := .closing, travel := 3, position := some 40, increment := some 1, closure := { auto := true } })).barriers[0].position = some 40 := by
  decide +kernel
theorem test_seal : (after (.sealTimerExpiry 0 []) (barrier { state := .closedUnsealed, sealTimer := some 1 })).latched .c .barrierFault 0 = true := by
  decide +kernel
theorem test_pulse_end :
    (after (.pulseEnd []) { bench with coil := { pulse := some ⟨0, .shed, .port, 1⟩ } }).coil = { recharge := some 800, check := some ⟨0, .shed, .port, 300⟩ } := by
  decide +kernel
theorem test_feedback :
    (after (.feedbackCheck []) { feed { state := .shedding, demand := { hard := true } } with coil := { check := some ⟨0, .shed, .hard, 1⟩ } }).feeds[0].cause =
      .hard := by
  decide +kernel
theorem test_recharge :
    (after (.rechargeTimerExpiry [])
      { feed { state := .shedWait, demand := { a := true } } with coil := { recharge := some 1, queue := [⟨0, .shed, 0⟩], entries := 1 } }).feeds[0].state =
      .shedding := by
  decide +kernel
/-- R115: without a prediction the arrival is NONE, above the lead time, so a deferral that ends leaves the feed WARNED. -/
theorem test_deferral : (after (.deferralExpiry 0 []) (feed { state := .deferred, deferral := some 1 })).feeds[0].state = .warned := by decide +kernel
theorem test_pre_arm : (after (.preArmExpiry 0) (feed { state := .live, preArm := some 1 })).feeds[0].preArm = none := by decide +kernel
theorem test_age :
    ((after (.ageTimerExpiry []) (bench.setOrders .b { queue := [{ order with mark := true }] })).ordersOf .b).done.map (·.ending) = [.stale] := by decide +kernel
theorem test_write_end :
    (after (.writeEnd true true 0 []) { bench with store := { bench.store with writing := some ⟨1, ⟨benchCfg, Locks.none⟩⟩ } }).store.image.cfg = benchCfg := by
  decide +kernel
theorem test_byte_opens : ((after (.byteReceived .a 0xC3 false) (line { bench.port .a with rx := .idle })).port .a).rx = .inFrame := by decide +kernel
theorem test_byte_start : (after (.byteReceived .a 0x3C false) (line { bench.port .a with rx := .idle })).latched .a .link 0 = true := by decide +kernel
theorem test_gap : (after (.gap .a) (line { bench.port .a with rx := .inFrame })).latched .a .link 3 = true := by decide +kernel
theorem test_quiet : ((after (.skippingQuiet .a) bench).port .a).rx = .idle := by decide +kernel
/-- The bytes of an EVENTS request, then a step on the empty queue: the request runs and its reply stands (R141, R143). -/
theorem test_frame_runs :
    (runAll (bytesOn .a ([0xC3, 0x03] ++ [0x03, 0x21, 0x00] ++ [highByte (crc16 [3, 3, 0x21, 0]), lowByte (crc16 [3, 3, 0x21, 0])]))
      (line { bench.port .a with rx := .idle })).map (fun t => match step t with
        | .next u => ((u.port .a).reply.map (·.tag), (u.port .a).checked.isNone, u.latched .a .restarted 0)
        | _ => (none, false, true)) = some (some 0x21, true, false) := by
  decide +kernel
theorem test_reply_sent :
    ((after (.replySent .a 0 []) (after (.events .a 1) bench)).port .a).rx = .skipping := by decide +kernel
theorem test_break : (after (.lineBreak .a []) bench).latched .b .portReset 0 = true := by decide +kernel
theorem test_break_end : ((after (.breakEnd .a) (line { bench.port .a with rx := .broken })).port .a).rx = .skipping := by decide +kernel

/-- The result and the data of the reply on a port. -/
def answered (s : State) (p : Port) : Option (Result × List Byte) := (s.port p).reply.map fun r => (r.result, r.data)

theorem test_picture : (answered (after (.picture .a 1 4) bench) .a).map (·.1) = some .noTarget := by decide +kernel
theorem test_state : (answered (after (.state .a 1 6 0) bench) .a).map (·.1) = some .badKind := by decide +kernel
/-- Item 0x07 of sump 0 is its lead start, 600 mm. -/
theorem test_config_get : answered (after (.configGet .a 1 0x07 0) bench) .a = some (.accepted, [0x02, 0x58]) := by decide +kernel
theorem test_fault : (answered (after (.fault .b 1) bench) .b).map (·.1) = some .accepted := by decide +kernel
theorem test_probe_raw : answered (after (.probeRaw .c 1 0) (probe { raw := [1966] })) .c = some (.accepted, [0x01, 0x07, 0xAE]) := by decide +kernel
theorem test_events : (after (.events .a 1) bench).latched .a .restarted 0 = false ∧ (after (.events .a 1) bench).latched .b .restarted 0 = true := by
  decide +kernel
theorem test_mask : ((after (.mask .a 1 0) bench).port .a).attention = false := by decide +kernel
theorem test_fault_clear : (after (.faultClear .a 1) { bench with fcr := { also := 1 } }).fcr = {} := by decide +kernel
theorem test_pump_start : (after (.pumpStart .b 1 2 0 1 0 []) (pump { budget := 6 })).pumps[0].state = .starting := by decide +kernel
theorem test_pump_stop : (after (.pumpStop .b 1 2 0 1 0 []) (pump { state := .running, minRunElapsed := true, demand := { b := true } })).pumps[0].state = .rest := by
  decide +kernel
theorem test_barrier_close : (after (.barrierClose .b 1 3 0 1 0 []) (barrier { state := .openEnd, position := some 0 })).barriers[0].state = .closing := by
  decide +kernel
/-- R102: a reopen height acts from the next picture: AUTO is cleared by the height in force. -/
theorem test_reopen_in_force :
    let s := fun (level : Nat) => { barrier { state := .sealed, position := some 40, closure := { auto := true } } with
      sumps := bench.sumps.set 0 { picture := { level := some level } }
      cfg := { benchCfg with barriers := benchCfg.barriers.set 0 { enable := true, reopenHeight := 700 } } }
    ((s 799).mayClearAuto 0, (s 800).mayClearAuto 0) = (true, false) ∧ ((s 700).handle (.pictureToPev 0)).mayClearAuto 0 = false := by decide +kernel
theorem test_barrier_open : (after (.barrierOpen .b 1 3 0 1 0 []) (barrier { state := .sealed, position := some 40 })).barriers[0].state = .opening := by
  decide +kernel
theorem test_barrier_home : (after (.barrierHome .a 1 3 0 1 0 []) (barrier {})).barriers[0].state = .homing := by decide +kernel
theorem test_feed_shed : (after (.feedShed .a 1 4 0 1 0 []) { feed { state := .live } with coil := {} }).feeds[0].state = .shedding := by decide +kernel
theorem test_feed_restore : (after (.feedRestore .b 1 4 0 1 0 []) (feed { state := .shed, demand := { b := true } })).feeds[0].demand = {} := by decide +kernel
/-- Deferral of more than the maximum is clamped; a feed that is not deferrable is OVERRIDDEN. -/
theorem test_feed_defer : ((after (.feedDefer .a 1 4 0 1 900 []) (feed { state := .warned })).ordersOf .a).done.map (·.ending) = [.overridden] := by
  decide +kernel
theorem test_settle : ((after (.settle .b 1 6 0 1 0 []) bench).ordersOf .b).done.map (·.ending) = [.done] := by decide +kernel
theorem test_withdraw : answered (after (.withdraw .b 1 2 0) (bench.setOrders .b { queue := [{ order with active := false }] })) .b = some (.accepted, [1]) := by
  decide +kernel
theorem test_abort : ((after (.abort .b 1 2 0 []) (bench.setOrders .b { queue := [order] })).ordersOf .b).done.map (·.ending) = [.aborted] := by decide +kernel
theorem test_collect : answered (after (.collect .b 1) bench) .b = some (.empty, []) := by decide +kernel
/-- A lead start at or above the lag start breaks the order (R34). -/
theorem test_config_set : (answered (after (.configSet .c 1 0x07 0 800 []) bench) .c).map (·.1) = some .orderViolation := by decide +kernel
/-- R69: a PUMP_STOP that waits ends DONE, the PUMP_START behind it DISTURBED, and the disabled pump's demand set stays empty. -/
theorem test_disable_ends_orders :
    let t := after (.configSet .c 1 0x20 0 0 []) (({ bench with pumps := bench.pumps.set 0 { state := .running, minRunElapsed := false } }).setOrders .b
      { queue := [{ order with kind := .pumpStop, fixedDone := true }, { order with slot := 1, seq := 8, active := false }] })
    (t.ordersOf .b).done.map (·.ending) = [.done, .disturbed] ∧ t.pumps[0].state = .off ∧ t.pumps[0].demand = {} := by decide +kernel
theorem test_config_clamps : (after (.configSet .c 1 0x61 0 3 []) bench).cfg.ageInterval = 5 := by decide +kernel
theorem test_lockout : (after (.lockout .c 1 2 0 []) (pump { state := .running, minRun := some 4 })).pumps[0].state = .locked := by decide +kernel
theorem test_unlock : (after (.unlock .c 1 2 0 []) (lockedPump { state := .locked, locked := true })).pumps[0].minOff = some 30000 := by decide +kernel
theorem test_clear_failure : (after (.clearFailure .c 1 2 0 []) (pump { state := .failed, failure := some .pumpNoFlow })).pumps[0].state = .rest := by
  decide +kernel
theorem test_restart : (after (.restart .c 1) bench).restartAtReply = true := by decide +kernel
/-- Each word of the table spells no command: its rows carry no bits. -/
theorem test_no_table_word : decodeTableWord 8 0 = none := by decide

/-! ### Each statement's hypotheses are met (its clauses at the ends of their ranges) -/

theorem test_witness_front_command : ({ bench with pending := [.sweep []] } : State).pending = [.sweep []] := rfl
/-- The body of an EVENTS request stands checked on Port B, none on Port A. -/
def framed : State := bench.setPort .b { bench.port .b with rx := .replying, checked := some [0x03, 0x21, 0x00] }
theorem test_witness_checked_frame : framed.pending = [] ∧ (framed.port .b).checked = some [0x03, 0x21, 0x00] ∧
    decodeRequest .b [0x03, 0x21, 0x00] = some (.events .b 0x21) ∧ (framed.port .a).checked = none := by decide +kernel
theorem test_witness_idle : bench.pending = [] ∧ (∀ p : Port, (bench.port p).checked = none) ∧ bench.powered = true ∧
    ({ bench with powered := false } : State).powered = false ∧
    (({ bench with timeMs := 999 } : State).timeMs + 1) % 1000 = 0 ∧ (({ bench with timeMs := 998 } : State).timeMs + 1) % 1000 ≠ 0 :=
  ⟨rfl, by intro p; cases p <;> rfl, by decide +kernel⟩
theorem test_witness_unpowered : ({ bench with powered := false } : State).powered = false ∧ (∀ contacts picks, Instr.sweep [] ≠ .powerOn contacts picks) ∧
    Instr.sweep [] ≠ .powerLoss := ⟨rfl, by simp, by simp⟩

/-- A running part with a command waiting: every invariant holds of it, and its step answers a next state. -/
def busy : State := { (pump { state := .running, minRun := some 4 }).updateAttention with pending := [.minRunTimerExpiry 0 []] }

theorem test_witness_step : ∃ t, step busy = .next t := ⟨_, rfl⟩
theorem test_witness_lines : busy.LinesRight := by intro p; cases p <;> decide +kernel
theorem test_witness_ordered : busy.ConfigOrdered :=
  ⟨by unfold Cfg.Ordered; decide +kernel, by unfold Cfg.Ordered; decide +kernel, by intro w h; simp [busy, pump, bench, State.reset, State.updateAttention, State.updateLine, State.setPort, State.setPump] at h⟩
theorem test_witness_pairs : ({ busy with drivers := busy.drivers.set 0 ⟨true, true, none⟩ } : State).PairsApart := by
  unfold State.PairsApart
  refine ⟨?_, by decide +kernel⟩
  intro d e h
  revert d e
  decide +kernel
theorem test_witness_slots : (busy.setOrders .b { queue := [order] }).SlotsRight := by
  intro p; unfold PortOrders.SlotsRight; cases p <;> decide +kernel
theorem test_witness_seqs : ({ busy.setOrders .b { queue := [order] } with nextSeq := 8 } : State).SeqsRight := by intro p; cases p <;> decide +kernel
theorem test_witness_locks : busy.LocksAgree := by unfold State.LocksAgree; decide +kernel
theorem test_witness_probes : ({ busy with probes := busy.probes.set 0 { state := .good, ring := List.replicate 8 6000 } } : State).ProbesRight ∧
  busy.RingsBounded := by
  unfold State.ProbesRight Probe.Right State.RingsBounded; decide +kernel
theorem coil_right_of {s : State} (h : (s.coil.queue.map (·.feed)).Nodup ∧ ∀ e ∈ s.coil.queue, s.feeds[e.feed].state = e.op.waitState) (hp : s.coil.pulse = none)
    (hc : ∀ w ∈ s.coil.check, s.feeds[w.feed].state = w.op.pulseState) : s.CoilRight :=
  ⟨h.1, h.2, fun w hw => hw.elim (fun h => by simp [hp] at h) fun h => hc w h, fun v w h => by simp [hp] at h⟩

theorem coil_right_empty {s : State} (hq : s.coil.queue = []) (hp : s.coil.pulse = none) (hc : s.coil.check = none) : s.CoilRight :=
  coil_right_of (by simp [hq]) hp (by simp [hc])

/-- A feed that waits in the coil queue for its shed pulse while the check of another runs. -/
def coiled : State :=
  { (feed { state := .shedWait, demand := { a := true } }).setFeed 1 { state := .shedding, demand := { hard := true } } with
    coil := { queue := [⟨0, .shed, 0⟩], check := some ⟨1, .shed, .hard, 3⟩, recharge := some 5, entries := 1 } }
theorem test_witness_coil : coiled.CoilRight := coil_right_of (by decide +kernel) (by decide +kernel) (by decide +kernel)

/-- A fault record that holds. -/
def faulted : State := { bench with fcr := { record := some ⟨.pumpNoFlow, some (.pump 0), none, 5, .runSeconds 5⟩ } }
theorem test_witness_fault_held : faulted.fcr.record = some ⟨.pumpNoFlow, some (.pump 0), none, 5, .runSeconds 5⟩ ∧ loads (.sweep []) = false ∧
    ∀ p tag, Instr.sweep [] ≠ .faultClear p tag := ⟨rfl, rfl, by simp⟩
theorem test_witness_latches : loads (.sweep []) = false ∧ (∀ picks, Instr.sweep [] ≠ .lineBreak .a picks) ∧ (∀ tag, Instr.sweep [] ≠ .events .a tag) ∧
    (∀ tag, Instr.sweep [] ≠ .collect .a tag) ∧ bench.latched .a .restarted 0 = true := ⟨rfl, by simp, by simp, by simp, by decide +kernel⟩
theorem test_witness_order_counts : ∃ kind p tag cls idx urgency seconds picks, Instr.settle .a 1 6 0 1 0 [] = orderCmd kind p tag cls idx urgency seconds picks :=
  ⟨.settle, .a, 1, 6, 0, 1, 0, [], rfl⟩

/-- The powered part, and the ends of the code ranges: 3601 and 3602 µA about code 590, 21,001 and 21,008 µA about 3441, 25,006 µA for 4095
and 25,007 µA beyond it. -/
theorem test_witness_samples : bench.powered = true ∧ 3601 * 1638 / 10000 = 589 ∧ 3602 * 1638 / 10000 = 590 ∧ 21001 * 1638 / 10000 = 3439 ∧
    21007 * 1638 / 10000 = 3440 ∧ 21008 * 1638 / 10000 = 3441 ∧ 25006 * 1638 / 10000 = 4095 ∧ 4095 < 25007 * 1638 / 10000 ∧
    (probe { state := .good, invalidRun := 2 }).probes[0].invalidRun < 3 ∧ 3 ≤ (probe { state := .good, invalidRun := 3 }).probes[0].invalidRun ∧
    (probe { state := .unproven, validRun := 6 }).probes[0].validRun < 7 ∧ 7 ≤ (probe { state := .unproven, validRun := 7 }).probes[0].validRun ∧
    (probe { state := .lost }).probes[0].state = .lost ∧ bench.probes[1].state = .disabled := by decide +kernel
theorem test_witness_outputs : bench.drivers[0].energised = false ∧
    ({ bench with drivers := bench.drivers.set 43 ⟨true, true, none⟩ } : State).drivers[43].energised = true := by decide +kernel

/-- A sump swept with one probe GOOD, with both, and with none on HELD and ASSUMED_HIGH. -/
def sumpOf (u : Sump) : State := bench.setSump 0 u
theorem test_witness_sweep : bench.cfg.sumps[1].enable = false ∧ bench.cfg.sumps[0].enable = true ∧ bench.ProbesRight ∧
    (probe { state := .good, ring := List.replicate 8 900 }).ProbesRight ∧
    (probe { state := .good, ring := List.replicate 8 900 }).probes[State.primaryOf 0].state = .good ∧
    (bench.setProbe 1 { state := .good, ring := List.replicate 8 900 }).probes[State.partnerOf 0].state = .good ∧
    ({ bench with cfg := { benchCfg with sumps := benchCfg.sumps.set 0 { enable := true, loss := .assumeHigh } } } : State).cfg.sumps[0].loss = .assumeHigh ∧
    (sumpOf { hasData := true }).sumps[0].hasData = true ∧ bench.sumps[0].hasData = false ∧ bench.cfg.sumps[0].loss = .hold := by
  unfold State.ProbesRight Probe.Right; decide +kernel
theorem test_witness_sweep_valid :
    ((({ probe { state := .good, ring := List.replicate 8 900 } with
      sumps := bench.sumps.set 0 { ring := List.replicate 3 ⟨890, false, 0⟩, hasData := true } } : State).handle (.sweepSump 0)).sumps[0].picture.valid) = true := by
  decide +kernel
theorem test_witness_volume : 1200 ≤ benchCfg.sumps[0].brim ∧ benchCfg.sumps[0].brim < 1201 ∧ 1 ≤ benchCfg.sumps[0].area ∧ benchCfg.sumps[0].area ≤ 100 ∧
    1 ≤ benchCfg.sumps[0].floor ∧ benchCfg.sumps[0].floor ≤ 5000 ∧ 100 ≤ benchCfg.sumps[0].brim ∧ benchCfg.sumps[0].brim ≤ 3000 := by decide +kernel

/-- A rule of the sump at a picture of 501 mm, above its threshold of 500 mm, and at one of 500 mm, which is not. -/
def ruled (r : Rule) (level : Option Nat) : State := (sumpOf { picture := { level := level } }).setRule 0 r
theorem test_witness_rule : (ruled {} (some 501)).cfg.rules[0].enable = true ∧ (ruled {} (some 501)).cfg.rules[0].sump = 0 ∧
    benchCfg.rules[1].enable = false ∧ benchCfg.rules[0].quantity = .level ∧ benchCfg.rules[0].threshold = 500 ∧ benchCfg.rules[0].cond.above = true ∧
    benchCfg.rules[0].cond.below = false ∧ (ruled {} none).sumps[0].picture.level = none ∧ (ruled {} (some 501)).sumps[0].picture.level = some 501 ∧
    (ruled { state := .counting, trueCount := 1 } (some 501)).rules[0].state = .counting ∧ (ruled { state := .fired } (some 500)).rules[0].state = .fired ∧
    benchCfg.rules[0].hold = 1 ∧ benchCfg.rules[0].release = 1 := by decide +kernel
/-- A rule on a flow, with longer counts, at a picture whose inflow is VALID or not. -/
def flowing (q : Quantity) (valid : Bool) (r : Rule) : State :=
  { (sumpOf { picture := { level := some 400, inflow := 501, netRise := 500, valid := valid } }).setRule 0 r with
    cfg := { benchCfg with rules := benchCfg.rules.set 0 { benchCfg.rules[0] with quantity := q, hold := 3, release := 2 } } }
theorem test_witness_rule_flows : (flowing .inflow true {}).cfg.rules[0].quantity = .inflow ∧ (flowing .inflow true {}).sumps[0].picture.valid = true ∧
    (flowing .inflow true {}).sumps[0].picture.inflow = 501 ∧ (flowing .netRise true {}).sumps[0].picture.netRise = 500 ∧
    (flowing .netRise false {}).sumps[0].picture.valid = false ∧ (flowing .inflow true {}).cfg.rules[0].hold = 3 ∧
    ((flowing .inflow true {}).stepRule 0 0).rules[0] = { state := .counting, trueCount := 1 } ∧
    ((flowing .netRise true { state := .fired, falseCount := 1 }).stepRule 0 0).rules[0] = {} ∧
    ((flowing .inflow false { state := .counting, trueCount := 2 }).stepRule 0 0).rules[0].trueCount = 2 := by decide +kernel
theorem test_witness_sump_state : (ruled {} none).sumps[0].picture.level = none ∧ benchCfg.sumps[0].hh = 1150 ∧ benchCfg.sumps[0].alert = 1000 ∧
    ((ruled {} (some 1150)).recomputeSump 0).sumps[0].state = .flood ∧ ((ruled {} (some 1149)).recomputeSump 0).sumps[0].state = .alert ∧
    ((ruled {} (some 1000)).recomputeSump 0).sumps[0].state = .alert ∧ ((ruled {} (some 999)).recomputeSump 0).sumps[0].state = .calm := by decide +kernel

/-- A shed feed whose hard demand floods its sump, with a barrier of the sump that stands open. -/
def flooding : State :=
  ((ruled {} (some 900)).setFeed 0 { state := .shed, demand := { hard := true } }).setBarrier 0 { state := .openEnd, position := some 0 }
theorem test_witness_barrier_closure : flooding.sumps[0].state ≠ .flood ∧ (flooding.handle (.feedReport 0)).sumps[0].state = .flood ∧
    flooding.cfg.barriers[0].enable = true ∧ flooding.cfg.barriers[0].sump = 0 ∧ flooding.barriers[0].closure.auto = false ∧
    (flooding.handle (.feedReport 0)).barriers[0].closure.auto = true ∧ ((ruled {} (some 999)).handle (.pictureToPev 0)).barriers[0].closure.auto = false ∧
    (ruled {} (some 1000)).cfg.barriers[0].closeHeight ≤ 1000 ∧ ((ruled {} (some 1000)).handle (.pictureToPev 0)).barriers[0].closure.auto = true := by
  decide +kernel

/-- Two pumps of one sump at a level; the token is with M0. -/
def twin (level : Option Nat) (u v : Pump) : State :=
  { (((sumpOf { picture := { level := level }, token := some 0 }).setPump 0 u).setPump 1 v) with
    cfg := { benchCfg with pumps := benchCfg.pumps.set 1 { enable := true } } }
theorem test_witness_auto_pumps : (twin (some 600) {} {}).cfg.sumps[0].ordered = true ∧ (twin none {} {}).sumps[0].picture.level = none ∧
    ((twin (some 600) {} {}).handle (.pictureToPev 0)).pumps[0].demand.auto = true ∧
      ((twin (some 599) {} {}).handle (.pictureToPev 0)).pumps[0].demand.auto = false ∧
    ((twin (some 799) {} {}).handle (.pictureToPev 0)).pumps[1].demand.auto = false ∧
      ((twin (some 800) {} {}).handle (.pictureToPev 0)).pumps[1].demand.auto = true ∧
    ((twin (some 600) { budget := 0 } {}).handle (.pictureToPev 0)).sumps[0].token = some 1 ∧
    ((twin (some 1150) { budget := 0 } { budget := 0 }).handle (.pictureToPev 0)).pumps[0].override = true ∧
    ((twin (some 1149) { override := true } {}).handle (.pictureToPev 0)).pumps[0].override = false ∧
    ((twin (some 300) { state := .running, minRunElapsed := true, demand := { auto := true } } {}).handle (.pictureToPev 0)).pumps[0].state = .rest ∧
    ((twin (some 301) { state := .running, minRunElapsed := true, demand := { auto := true } } {}).handle (.pictureToPev 0)).pumps[0].state = .running := by
  decide +kernel
/-- A departure at the duty weight, one before it, and one of a pump that did not run as lead. -/
def duties (weight duty : Nat) (ran : Bool) : State :=
  { bench with
    sumps := bench.sumps.set 0 { token := some 0, duty := duty, leadRan := ran }
    cfg := { benchCfg with sumps := benchCfg.sumps.set 0 { enable := true, weight := weight }, pumps := benchCfg.pumps.set 1 { enable := true } } }
theorem test_witness_departure : (duties 2 0 true).sumps[0].duty + 1 < 2 ∧ 2 ≤ (duties 2 1 true).sumps[0].duty + 1 ∧
    ((duties 2 1 true).handle (.pumpLeft 0 0)).sumps[0].token = some 1 ∧ ((duties 2 0 true).handle (.pumpLeft 0 0)).sumps[0].token = some 0 ∧
    ((duties 2 1 false).handle (.pumpLeft 0 0)).sumps[0].duty = 1 := by decide +kernel

theorem test_witness_pump_expiries : (pump { state := .starting, proving := some 0 }).powered = true ∧
    (pump { state := .starting, proving := some 0 }).pumps[0].state = .starting ∧ (pump { state := .starting, proving := some 0 }).pumps[0].proving.isSome = true ∧
    (pump { state := .running, noFlow := some 0 }).pumps[0].state = .running ∧ (pump { state := .running, noFlow := some 0 }).pumps[0].noFlow.isSome = true ∧
    (pump { state := .running, minRun := some 0 }).pumps[0].minRun.isSome = true ∧ (pump { state := .rest, minOff := some 0 }).pumps[0].state = .rest ∧
    (pump { state := .rest, minOff := some 0 }).pumps[0].minOff.isSome = true ∧ (pump { demand := { c := true } }).pumps[0].demand.c = true ∧
    (pump { budget := 0, demand := { auto := true }, override := true }).pumps[0].overriding = true := by decide +kernel

def supply (a : Sar) : State := { bench with sar := a }
theorem test_witness_supply : (supply { count := 4 }).cfg.supplyLimit ≤ (supply { count := 4 }).sar.count ∧
    (supply { count := 3 }).sar.count < (supply { count := 3 }).cfg.supplyLimit ∧ (supply { count := 3 }).sar.outstanding = none ∧
    (supply { count := 3 }).sar.waiting = [] ∧ (supply { count := 4, waiting := [⟨0, { auto := true }⟩] }).sar.count - 1 < bench.cfg.supplyLimit ∧
    (supply { count := 4, waiting := [⟨0, { auto := true }⟩] }).sar.waiting ≠ [] ∧
    (supply { count := 1, outstanding := some (0, some 2) }).sar.outstanding = some (0, some 2) ∧
    (supply { count := 4, waiting := [⟨0, { b := true }⟩, ⟨1, { a := true }⟩, ⟨2, { auto := true }⟩] }).sar.waiting.length = 3 := by decide +kernel
/-- Among port pumps the one that an URGENT start names goes first. -/
theorem test_supply_order :
    ((({ supply { count := 4, waiting := [⟨1, { a := true }⟩, ⟨0, { b := true }⟩] } with
      orders := bench.orders.set 1 { queue := [{ order with urgent := true }] } } : State).handle (.sarFreed 3)).sar.outstanding.map (·.1)) = some 0 := by
  decide +kernel

/-- The inputs of pump M0, on whatever its record holds. -/
theorem test_witness_pump_inputs (r : Pump) : (pump r).pumps[0] = r ∧ (pump r).cfg.pumps[0].enable = true ∧
    (pump r).contacts[overloadK 0].accepted = false ∧ (made 8 (pump r)).contacts[overloadK 0].accepted = true ∧ (pump r).drivers[runD 0].latch = none :=
  ⟨rfl, rfl, rfl, rfl, rfl⟩
/-- A grant at the last start, at none left under the override, and with no demand left. -/
theorem test_witness_pump_grant :
    ((pump { demand := { b := true }, budget := 1 }).handle (.grantPump 0)).latched .a .pumpBudgetOut 0 = true ∧
    ((pump { demand := { b := true }, budget := 2 }).handle (.grantPump 0)).latched .a .pumpBudgetOut 0 = false ∧
    ((pump { demand := { auto := true }, override := true, budget := 0 }).handle (.grantPump 0)).pumps[0].state = .starting ∧
    ((made 8 (pump { demand := { b := true } })).handle (.grantPump 0)).pumps[0].state = .failed ∧
    ((pump {}).handle (.grantPump 0)).work = [.sarHandedBack 0] := by decide +kernel

/-- A travel at the home limit of 45 and one before it, and what wants it. -/
def travel (r : Barrier) : State := barrier { r with increment := some 0 }
theorem test_witness_increment : (travel { state := .homing, travel := 44 }).barriers[0].increment.isSome = true ∧
    homeLimit (travel { state := .homing, travel := 44 }).cfg.barriers[0].closedCount ≤ (travel { state := .homing, travel := 44 }).barriers[0].travel + 1 ∧
    (travel { state := .closing, travel := 43 }).barriers[0].travel + 1 < homeLimit benchCfg.barriers[0].closedCount ∧ benchCfg.barriers[0].enable = true ∧
    (travel { state := .closing, closure := { auto := true } }).barriers[0].closure.auto = true ∧
    (travel { state := .opening, release := .openEnd, position := some 0 }).barriers[0].release = .openEnd ∧
    (travel { state := .closing }).barriers[0].home = {} ∧ (travel { state := .homing, home := { b := true } }).barriers[0].home ≠ {} ∧
      (barrier { state := .closedUnsealed, sealTimer := some 0 }).barriers[0].sealTimer.isSome = true := by
  decide +kernel
/-- Whatever a record holds, it travels with its increment due; what closes, homes, opens or halts it, and what does not run. -/
theorem test_witness_travels (r : Barrier) : (travel r).barriers[0] = { r with increment := some 0 } ∧ (travel r).cfg.barriers[0].enable = true ∧
    (travel r).powered = true ∧ (barrier r).barriers[0] = r ∧ ({ closure := { b := true } } : Barrier).Acts ∧ ¬({ home := { b := true } } : Barrier).Acts ∧
    ({ home := { b := true } } : Barrier).home ≠ {} ∧ ({ release := .openEnd, position := some 9 } : Barrier).releaseHeld = false ∧
    ({ state := .openEnd, increment := some 0 } : Barrier).state ≠ .opening ∧ ({ state := .closedUnsealed } : Barrier).sealTimer.isSome = false :=
  ⟨rfl, rfl, rfl, rfl, by decide, by decide, by decide, rfl, by decide, rfl⟩
/-- An opening that a closure turns, a closing that its home set turns, and an opening that a home set takes on. -/
theorem test_increment_turns :
    (after (.incrementTimerExpiry 0 []) (travel { state := .opening, closure := { b := true }, position := some 9 })).barriers[0].state = .closing ∧
    (after (.incrementTimerExpiry 0 []) (travel { state := .closing, home := { b := true }, position := some 9, travel := 7 })).barriers[0].travel = 0 ∧
    (after (.incrementTimerExpiry 0 []) (travel { state := .opening, home := { b := true }, position := some 9 })).barriers[0].state = .homing := by
  decide +kernel
def drive (d : Dar) : State := { bench with dar := d }
theorem test_witness_drive : (drive { slot1 := some 0 }).dar.outstanding = none ∧ (drive { slot1 := some 0 }).dar.slot1 = some 0 ∧
    (drive { slot1 := some 0 }).dar.slot2 ≠ some 0 ∧ (drive { slot1 := some 0 }).dar.waiting = [] ∧
    (drive { slot1 := some 0, slot2 := some 5, waiting := [(1, .open_), (2, .close)] }).dar.waiting ≠ [] ∧
    (drive { slot1 := some 0, outstanding := some (0, some 3) }).dar.outstanding = some (0, some 3) := by decide +kernel

/-- The inputs of barrier B0, on whatever its record holds, and what closes, homes and opens. -/
theorem test_witness_barrier_inputs (r : Barrier) : (barrier r).barriers[0] = r ∧ (barrier r).cfg.barriers[0].enable = true ∧
    (barrier r).contacts[openLimitK 0].accepted = false ∧ (made 16 (barrier r)).contacts[openLimitK 0].accepted = true ∧
    (barrier r).contacts[closedLimitK 0].accepted = false ∧ (made 22 (barrier r)).contacts[closedLimitK 0].accepted = true ∧
    (barrier r).contacts[sealK 0].accepted = false ∧ (made 28 (barrier r)).contacts[sealK 0].accepted = true ∧
    (barrier r).contacts[driveOverloadK 0].accepted = false ∧ (made 34 (barrier r)).contacts[driveOverloadK 0].accepted = true ∧
    (barrier r).drivers[driveCloseD 0].latch = none ∧ (barrier r).drivers[driveOpenD 0].commanded = false :=
  ⟨rfl, rfl, rfl, rfl, rfl, rfl, rfl, rfl, rfl, rfl, rfl, rfl⟩
theorem test_witness_barrier_wants : ({ state := .openEnd, closure := { auto := true } } : Barrier).Acts ∧
    ¬({ state := .locked, locked := true, closure := { auto := true } } : Barrier).Acts ∧
    ({ state := .stopped, position := some 9, release := .openEnd } : Barrier).want true = .open_ ∧
    ({ state := .locked, position := some 9, release := .openEnd, locked := true, releaseHeld := true } : Barrier).want true = .none ∧
    ({ state := .openEnd, home := { b := true } } : Barrier).want true = .home := by decide +kernel
theorem test_barrier_turns : (({ barrier { state := .opening, closure := { auto := true } } with drivers := bench.drivers.set 14 ⟨true, true, none⟩ } : State).handle
    (.contact (openLimitK 0) true)).barriers[0].state = .closing := by decide +kernel

/-- A picture of the sump at the trip height of its one feed, alone in chain 1, with the coil idle and with it busy. -/
def tripping (level : Nat) (coil : Coil) : State :=
  { (feed { state := .live }) with
    cfg := { benchCfg with feeds := benchCfg.feeds.set 0 { enable := true, rank := 0, chain := 1 } }, sumps := bench.sumps.set 0 { picture := { level := some level } }
    coil := coil }
theorem test_witness_picture_judges : (tripping 1500 { recharge := some 5 }).coil.recharge.isSome = true ∧
    (tripping 1500 {}).sumps[0].picture.level = some 1500 ∧ bench.sumps[0].picture.level = none ∧ (tripping 1500 {}).feeds[0].items.trip ≤ 1500 ∧
    (∀ g : Fin 12, (tripping 1500 {}).cfg.feeds[g].chain = 1 → g = 0) ∧ (tripping 1500 {}).coil = {} ∧ (tripping 1500 {}).drivers[shedCoilD 0].latch = none ∧
    ((tripping 1500 {}).handle (.shsChain 0 1)).feeds[0].state = .shedding ∧ ((tripping 1499 {}).handle (.shsChain 0 1)).feeds[0].state = .live ∧
    ((tripping 1500 { recharge := some 5 }).handle (.shsChain 0 1)).feeds[0].state = .shedWait := by decide +kernel
theorem test_witness_picture_coil (n : Nat) (c : Option Nat) : (tripping n { recharge := c }).CoilRight :=
  coil_right_empty rfl rfl rfl

/-- Feeds that wait for the coil: one to be shed on a port's demand, one on a hard demand, and one to be restored, each beside or without the others. -/
def queued (q : List CoilEntry) (v : Feed) : State :=
  { (((feed v).setFeed 1 { state := .shedWait, demand := { hard := true } }).setFeed 2 { state := .restoreWait, request := true }) with
    sumps := bench.sumps.set 0 { picture := { level := some 1299 } }
    cfg := { benchCfg with feeds := (benchCfg.feeds.set 1 { enable := true, rank := 1, chain := 1 }).set 2 { enable := true, rank := 2, chain := 2 } }
    coil := { queue := q, recharge := some 5, entries := 3 } }
theorem test_witness_recharge : (queued [⟨0, .shed, 0⟩] {}).powered = true ∧ (queued [⟨0, .shed, 0⟩] {}).coil.recharge.isSome = true ∧
    (queued [⟨0, .shed, 0⟩] {}).coil.pulse = none ∧ (supply {}).coil.queue = [] ∧ (supply {}).coil.recharge.isSome = true ∧
    (queued [⟨2, .restore, 0⟩] {}).feeds[2].request = true ∧ (queued [⟨2, .restore, 0⟩] {}).feeds[2].demand = {} ∧
    (queued [⟨2, .restore, 0⟩] {}).feeds[2].items.band + 1299 < (queued [⟨2, .restore, 0⟩] {}).feeds[2].items.trip ∧
    (∀ g : Fin 12, (queued [] {}).cfg.feeds[g].enable = true → (queued [] {}).cfg.feeds[g].chain = 2 → g = 2) ∧
    (∀ g : Fin 12, (queued [] {}).cfg.feeds[g].enable = true → (queued [] {}).cfg.feeds[g].chain = 0 → g = 0) ∧
    (queued [] {}).drivers[shedCoilD 1].latch = none ∧ (queued [] {}).drivers[restoreCoilD 2].latch = none := by decide +kernel
/-- The hard shed goes before the older one, and a restore goes last. -/
theorem test_coil_order :
    (after (.rechargeTimerExpiry []) (queued [⟨0, .shed, 0⟩, ⟨2, .restore, 1⟩, ⟨1, .shed, 2⟩] { state := .shedWait, demand := { a := true } })).coil.pulse =
      some ⟨1, .shed, .hard, 200⟩ ∧
    (after (.rechargeTimerExpiry []) (queued [⟨2, .restore, 1⟩] {})).feeds[2].state = .restoring := by decide +kernel
theorem test_witness_recharge_coil : (queued [⟨0, .shed, 0⟩, ⟨2, .restore, 1⟩, ⟨1, .shed, 2⟩] { state := .shedWait, demand := { a := true } }).CoilRight :=
  coil_right_of (by decide +kernel) (by decide +kernel) (by decide +kernel)
theorem test_witness_pulse : ({ bench with coil := { pulse := some ⟨0, .restore, .port, 1⟩ } } : State).coil.pulse = some ⟨0, .restore, .port, 1⟩ ∧
    bench.coil.pulse = none := by decide +kernel

/-- A pulse of one feed under its check. -/
def checked (op : CoilOp) (v : Feed) : State := { feed { v with state := op.pulseState } with coil := { check := some ⟨0, op, .hard, 0⟩, recharge := some 5 } }
theorem test_witness_check (op : CoilOp) (v : Feed) : (checked op v).CoilRight ∧ (checked op v).powered = true ∧
    (checked op v).coil.check = some ⟨0, op, .hard, 0⟩ ∧ (checked op v).feeds[0].demand = v.demand ∧ (checked op v).feeds[0].retry = v.retry ∧
    (checked op v).feeds[0].request = v.request ∧ (checked op v).CoilHeld ∧ (feed v).coil.check = none :=
  ⟨coil_right_of ⟨List.nodup_nil, fun e h => nomatch h⟩ rfl (by intro w h; cases h; rfl), rfl, rfl, rfl, rfl, rfl, .inr rfl, rfl⟩
theorem test_witness_check_contact : bench.contacts[auxK 0].accepted = false ∧ (made 40 bench).contacts[auxK 0].accepted = true := by decide +kernel
/-- Manual operation, and a coil's fault report in its pulse, on whatever the record holds. -/
theorem test_witness_manual (v : Feed) : (feed v).coil.pulse = none ∧ (feed v).coil.check = none ∧ (feed v).feeds[0] = v ∧ (feed v).CoilRight ∧
    (feed v).CoilHeld :=
  ⟨rfl, rfl, rfl, coil_right_empty rfl rfl rfl, .inr rfl⟩
def pulsed : State := { feed { state := .shedding } with coil := { pulse := some ⟨0, .shed, .port, 9⟩ } }
theorem test_witness_coil_fault : pulsed.coil.pulse = some ⟨0, .shed, .port, 9⟩ ∧
  (pulsed.handle (.driverFault (shedCoilD 0) .openLoad)).feeds[0].state = .fault := by
  decide +kernel
theorem test_witness_coil_fault_right : pulsed.CoilRight :=
  ⟨by decide +kernel, by decide +kernel, fun w hw => by rcases hw with h | h <;> cases h; rfl, fun _ _ _ h => by cases h⟩
/-- A feed with one below it in its chain, its arrival at a time. -/
def deferring (v w : Feed) (time : Nat) : State :=
  { ((feed w).setFeed 1 { v with items := {} }) with
    cfg := { benchCfg with feeds := benchCfg.feeds.set 1 { enable := true, rank := 1 } }
    sumps := bench.sumps.set 0 { picture := { arrivals := [⟨.feed 1, 1500, time⟩] } } }
theorem test_witness_deferral (v w : Feed) (n : Nat) : (deferring v w n).feeds[1] = { v with items := {} } ∧ (deferring v w n).feeds[0] = w ∧
  (deferring v w n).powered = true ∧
    (deferring v w n).feedArrival 1 = n ∧ (deferring v w n).CoilRight ∧ (deferring v w n).CoilHeld ∧ (deferring v w n).cfg.feeds[0].enable = true ∧
    (deferring v w n).cfg.feeds[0].chain = (deferring v w n).cfg.feeds[1].chain ∧
    (deferring v w n).cfg.feeds[0].rank < (deferring v w n).cfg.feeds[1].rank ∧ (deferring v w n).feeds[1].items.lead = 900 :=
  ⟨rfl, rfl, rfl, rfl, coil_right_empty rfl rfl rfl, .inr rfl, rfl, rfl, (by decide +kernel : benchCfg.feeds[0].rank < 1), rfl⟩
/-- Within the lead time a deferral's end sheds the feed and pulls the one below it, or arms its pre-arm; one second beyond, the feed is WARNED. -/
theorem test_deferral_ends :
    let at_ := fun (w : Feed) (n : Nat) => after (.deferralExpiry 1 []) (deferring { state := .deferred, deferral := some 0 } w n)
    ((at_ { state := .live } 900).feeds[1].state, (at_ { state := .live } 900).feeds[0].state) = (.shedWait, .shedWait) ∧
    (at_ { state := .live, preArm := some 60 } 900).feeds[0].deferral = some 60 ∧ (at_ { state := .live } 901).feeds[1].state = .warned := by decide +kernel
/-- R120: a lead time written since the latest picture does not act at the deferral's end; it is in force after an order on the feed and after a sweep. -/
theorem test_items_in_force :
    let s : State := { deferring { state := .deferred, deferral := some 0 } { state := .live } 500 with
      cfg := { benchCfg with feeds := benchCfg.feeds.set 1 { enable := true, rank := 1, lead := 100 } } }
    (after (.deferralExpiry 1 []) s).feeds[1].state = .shedWait ∧ (after (.deferralExpiry 1 []) s).feeds[1].items.lead = 900 ∧
    (after (.deferralExpiry 1 []) (after (.feedRestore .b 1 4 1 1 0 []) s)).feeds[1].state = .warned ∧ (s.handle (.sweepSump 0)).feeds[1].items.lead = 100 ∧
    (s.handle (.sweepSump 1)).feeds[1].items.lead = 900 := by decide +kernel
theorem test_break_ends_deferral :
    let at_ := fun (n : Nat) => after (.lineBreak .a []) (deferring { state := .deferred, deferral := some 9 } { state := .live, preArm := some 60 } n)
    (at_ 900).feeds[0].state = .shedWait ∧ (at_ 901).feeds[0] = { state := .live } ∧ (at_ 901).feeds[1].state = .warned ∧
    (at_ 901).latched .b .deferEnded 1 = true := by decide +kernel

/-! Orders: each is placed by Port B, by Port A for a FEED_DEFER, and by Port C on a unit in the lockout set. -/

theorem test_witness_order_checks : (0x07 : Byte).toNat > 6 ∧ (0x02 : Byte).toNat > 1 ∧ classOf 6 = some OrderKind.settle.actsOn ∧
    classOf 2 ≠ some OrderKind.settle.actsOn ∧ orderTarget OrderKind.pumpStart.actsOn 8 = none ∧ orderTarget OrderKind.pumpStart.actsOn 7 = some (.pump 7) ∧
    OrderKind.pumpStart.allowed .b = true ∧ bench.targetEnabled (.pump 7) = false ∧ bench.targetEnabled (.pump 0) = true ∧
    (lockedPump { state := .locked, locked := true }).inLockout (.pump 0) = true ∧ bench.inLockout (.pump 0) = false ∧
    (∀ n < 8, n ∈ ((bench.setOrders .b { queue := (List.range 8).map fun n => { order with slot := n, seq := n } }).ordersOf .b).used) := by decide +kernel
theorem accepts_of {s : State} {p : Port} {t : Target} {n : Nat} (h : s.targetEnabled t = true ∧ (t.lockable = true → (s.inLockout t = true ↔ p = .c)))
    (hs : n < 8 ∧ n ∉ (s.ordersOf p).used ∧ ∀ k < n, k ∈ (s.ordersOf p).used) : s.Accepts p t n := ⟨h.1, h.2, hs⟩
theorem test_witness_accepted_order : ({ bench.setOrders .b { queue := [order] } with nextSeq := 8 } : State).Accepts .b (.pump 0) 1 :=
  accepts_of (by decide +kernel) (by decide +kernel)
/-- The queue's order is ACTIVE on M0; B0 has none. -/
theorem test_witness_accepted_behind : ({ bench.setOrders .b { queue := [order] } with nextSeq := 8 } : State).Accepts .b (.barrier 0) 1 ∧ order.active = true ∧
    order.target = .pump 0 ∧ order.target ≠ .barrier 0 ∧ OrderKind.pumpStop ≠ .settle :=
  ⟨accepts_of (by decide +kernel) (by decide +kernel), by decide⟩
theorem test_witness_accepted_order_seqs : ({ bench.setOrders .b { queue := [order] } with nextSeq := 8 } : State).SeqsRight := by
  intro p; cases p <;> decide +kernel

theorem bench_accepts : (bench.Accepts .b (.pump 0) 0 ∧ bench.Accepts .b (.barrier 0) 0 ∧ bench.Accepts .b (.feed 0) 0 ∧ bench.Accepts .a (.feed 0) 0) ∧
    (lockedPump {}).Accepts .c (.pump 0) 0 ∧ (lockedBarrier {}).Accepts .c (.barrier 0) 0 :=
  ⟨⟨accepts_of (by decide +kernel) (by decide +kernel), accepts_of (by decide +kernel) (by decide +kernel), accepts_of (by decide +kernel) (by decide +kernel),
    accepts_of (by decide +kernel) (by decide +kernel)⟩, accepts_of (by decide +kernel) (by decide +kernel), accepts_of (by decide +kernel) (by decide +kernel)⟩

/-- Nothing of a unit's own record bears on whether an order for it is accepted. -/
theorem test_witness_pump_orders (r : Pump) : (pump r).Accepts .b (.pump 0) 0 ∧ (lockedPump r).Accepts .c (.pump 0) 0 ∧ ((pump r).ordersOf .b).queue = [] ∧
    ((lockedPump r).ordersOf .c).queue = [] ∧ (pump r).pumps[0] = r ∧ (lockedPump r).pumps[0] = r ∧ (pump r).powered = true ∧ (0 : Byte).toNat ≤ 1 ∧
      (1 : Byte).toNat ≤ 1 :=
  ⟨⟨bench_accepts.1.1.1, bench_accepts.1.1.2⟩, ⟨bench_accepts.2.1.1, bench_accepts.2.1.2⟩, rfl, rfl, rfl, rfl, rfl, by decide, by decide⟩
/-- The locked flags are the lockout set where the record has the flag of its lock. -/
theorem test_witness_locks_agree : (pump { state := .running }).LocksAgree ∧ (lockedPump { state := .locked, locked := true }).LocksAgree ∧
    (barrier { state := .openEnd }).LocksAgree ∧ (lockedBarrier { state := .locked, locked := true }).LocksAgree := by
  unfold State.LocksAgree; decide +kernel
theorem test_witness_barrier_orders (r : Barrier) : (barrier r).Accepts .b (.barrier 0) 0 ∧ (lockedBarrier r).Accepts .c (.barrier 0) 0 ∧
    ((barrier r).ordersOf .b).queue = [] ∧ ((lockedBarrier r).ordersOf .c).queue = [] ∧ (barrier r).barriers[0] = r ∧ (lockedBarrier r).barriers[0] = r ∧
    (barrier r).powered = true :=
  ⟨⟨bench_accepts.1.2.1.1, bench_accepts.1.2.1.2⟩, ⟨bench_accepts.2.2.1, bench_accepts.2.2.2⟩, rfl, rfl, rfl, rfl, rfl⟩
theorem test_witness_feed_orders (v : Feed) : (feed v).Accepts .b (.feed 0) 0 ∧ (feed v).Accepts .a (.feed 0) 0 ∧ ((feed v).ordersOf .a).queue = [] ∧
    ((feed v).ordersOf .b).queue = [] ∧ (feed v).feeds[0] = v ∧ (feed v).powered = true ∧ (feed v).CoilRight :=
  ⟨⟨bench_accepts.1.2.2.1.1, bench_accepts.1.2.2.1.2⟩, ⟨bench_accepts.1.2.2.2.1, bench_accepts.1.2.2.2.2⟩, rfl, rfl, rfl, rfl,
    coil_right_empty rfl rfl rfl⟩
/-- The release conditions hold one mm below the band and one s beyond the warning, and fail at their edges. -/
theorem test_witness_release :
    let at_ := fun (level time : Nat) => (({ feed { state := .shed } with sumps := bench.sumps.set 0 { picture := { level := some level, arrivals := [⟨.feed 0, 1500, time⟩] } } } : State)).releaseHolds 0
    at_ 1299 1501 = true ∧ at_ 1300 1501 = false ∧ at_ 1299 1500 = false := by decide +kernel
/-- A feed whose release conditions hold, and one that may be deferred, on whatever the record holds. -/
def releasing (v : Feed) : State := { feed v with sumps := bench.sumps.set 0 { picture := { level := some 1299, arrivals := [⟨.feed 0, 1500, 1501⟩] } } }
def deferrable (v : Feed) : State :=
  { feed v with cfg := { benchCfg with feeds := benchCfg.feeds.set 0 { enable := true, rank := 0, deferrable := true, maxDeferral := 600 } } }
theorem deferrable_accepts : (deferrable {}).Accepts .a (.feed 0) 0 := accepts_of (by decide +kernel) (by decide +kernel)
theorem test_witness_released (v : Feed) : (releasing v).Accepts .a (.feed 0) 0 ∧ ((releasing v).ordersOf .a).queue = [] ∧ (releasing v).feeds[0] = v ∧
    (releasing v).CoilRight ∧ (releasing v).CoilHeld ∧ (feed v).CoilHeld ∧ ({ b := true } : ShedSet) ≠ {} :=
  ⟨⟨bench_accepts.1.2.2.2.1, bench_accepts.1.2.2.2.2⟩, rfl, rfl, coil_right_empty rfl rfl rfl,
    .inr rfl, .inr rfl, by decide⟩
theorem test_witness_deferrable (v : Feed) : (deferrable v).Accepts .a (.feed 0) 0 ∧ ((deferrable v).ordersOf .a).queue = [] ∧ (deferrable v).feeds[0] = v ∧
    (deferrable v).CoilRight ∧ (deferrable v).CoilHeld ∧ (deferrable v).cfg.feeds[0].deferrable = true ∧ (deferrable v).cfg.feeds[0].maxDeferral = 600 ∧
    (deferrable v).powered = true :=
  ⟨⟨deferrable_accepts.1, deferrable_accepts.2⟩, rfl, rfl, coil_right_empty rfl rfl rfl, .inr rfl, rfl, rfl, rfl⟩
/-- A WARNED feed is deferred for at most its maximum, and one in SHED_WAIT that a port sheds too waits on with the deferral. -/
theorem test_defer : (after (.feedDefer .a 1 4 0 1 900 []) (deferrable { state := .warned })).feeds[0].deferral = some 600 ∧
    (after (.feedDefer .a 1 4 0 1 60 []) (deferrable { state := .shedWait, demand := { predict := true, b := true } })).feeds[0].state = .shedWait ∧
    (after (.feedDefer .a 1 4 0 1 60 []) (deferrable { state := .live })).feeds[0].preArm = some 60 := by decide +kernel
theorem test_witness_settle : bench.FreeSlot .b 0 ∧ (bench.ordersOf .b).queue = [] ∧ (bench.setOrders .b { queue := [order] }).FreeSlot .b 1 ∧
    ((bench.setOrders .b { queue := [order] }).ordersOf .b).queue ≠ [] ∧
    ∀ e ∈ ((bench.setOrders .b { queue := [order] }).ordersOf .b).queue, e.kind = .settle → e.settle ≠ [] := by unfold State.FreeSlot; decide +kernel
/-- An order, one that waits, and a SETTLE behind both, as they were accepted. -/
def settlers (e w : Entry) : List Entry :=
  [{ e with seq := 7, settle := [] }, { w with slot := 1, seq := 8, active := false, settle := [] },
    { order with slot := 2, seq := 9, kind := .settle, target := .port, settle := [7, 8] }]
def settling (s : State) (p : Port) (e w : Entry) : State := s.setOrders p { queue := settlers e w }
theorem test_witness_settling (s : State) (p : Port) (e w : Entry) (he : e.kind ≠ .settle) (hw : w.kind ≠ .settle) :
    ((settling s p e w).ordersOf p).QueueRight ∧ ((settling s p e w).ordersOf p).queue.length ≤ 8 ∧
    (e.active = true → (((settling s p e w).ordersOf p).queue.find? fun x => x.active && x.target == e.target) = some { e with seq := 7, settle := [] }) ∧
    (((settling s p e w).ordersOf p).queue.find? fun x => x.target == e.target) = some { e with seq := 7, settle := [] } := by
  have h : (settling s p e w).ordersOf p = { queue := settlers e w } := State.ordersOf_setOrders_self ..
  rw [h]
  refine ⟨⟨show [7, 8, 9].Nodup by decide, by simp [settlers, he, hw], ?_, ?_⟩, show 3 ≤ 8 by decide, fun h => by simp [settlers, h], by simp [settlers]⟩
  · intro l x r h
    match l, h with
    | [], h => cases h; simp [he]
    | [_], h => cases h; simp [hw]
    | [_, _], h => cases h; rfl
    | [_, _, _], h => cases h
    | _ :: _ :: _ :: _ :: _, h => cases h
  · simp [settlers, he, hw]
theorem test_witness_settles : (settling busy .b order order).SettlesRight := by
  have empty : PortOrders.SettlesRight {} := by
    refine ⟨fun l x r h => ?_, fun x h => nomatch h⟩
    cases l <;> cases h
  intro p
  cases p
  · exact empty
  · exact (test_witness_settling _ _ _ _ (by decide) (by decide)).1.2.2
  · exact empty
/-- The order stands ACTIVE with another behind it on its target, or alone there; or it waits with none ACTIVE before it; no other port has one. -/
theorem test_witness_settling_orders :
    let q := fun (e w : Entry) => ((settling bench .b e w).ordersOf .b).queue
    ((q order order).find? fun x => x.active && x.target == .pump 0) = some order ∧ (∀ x ∈ (q order order).head?, x.active = true ∧ x.kind ≠ .settle) ∧
    (∀ x ∈ q order { order with target := .pump 1 }, x.target = .pump 0 → x = order) ∧
    (∀ g, g ≠ .b → ∀ x ∈ ((settling bench .b order order).ordersOf g).queue, x.target ≠ .pump 0) ∧
    (let w := { order with active := false }
     ((q w w).find? fun x => x.target == .pump 0) = some w ∧ ∀ x ∈ q w w, x.target = .pump 0 → x.active = false) ∧
    OrderKind.pumpStart ≠ .settle ∧ (Target.pump 0) ≠ .port := by
  refine ⟨by decide +kernel, by decide +kernel, by decide +kernel, fun g h => ?_, by decide +kernel, by decide⟩
  cases g <;> first | exact absurd rfl h | (intro x hx; cases hx)
/-- What has ended in Port B's list, and what stands in its queue. -/
def leaves (t : State) (ended : List (Nat × Ending)) (left : List (Nat × Bool × List Nat)) : Bool :=
  ((t.ordersOf .b).done.map fun c => (c.seq, c.ending)) == ended && ((t.ordersOf .b).queue.map fun e => (e.seq, e.active, e.settle)) == left
/-- What ends leaves the settle set, and the SETTLE completes when the set is empty. -/
theorem test_settling :
    leaves (after (.withdraw .b 1 2 0) (settling bench .b order order)) [(8, .withdrawn)] [(7, true, []), (9, true, [7])] ∧
    leaves (after (.abort .b 1 2 0 []) (settling bench .b order order)) [(7, .aborted)] [(8, true, []), (9, true, [8])] ∧
    leaves (after (.abort .b 1 6 0 []) (settling bench .b order order)) [(9, .aborted)] [(7, true, []), (8, false, [])] := by decide +kernel
/-- So with the notices that end an order, and those that end all. -/
theorem test_settling_notices :
    let on := fun (n : PumpNews) => (settling (lockedPump { state := .locked, locked := true }) .b order order).handle (.pumpNews 0 n)
    leaves ((settling bench .b order order).handle (.pumpNews 0 .running)) [(7, .done)] [(8, true, []), (9, true, [8])] ∧
    leaves (on .locked) [(7, .disturbed), (8, .disturbed), (9, .done)] [] ∧ leaves (on .disabled) [(7, .disturbed), (8, .disturbed), (9, .done)] [] ∧
    leaves (on .unlocked) [] [(7, true, []), (8, false, []), (9, true, [7, 8])] := by decide +kernel
theorem test_settling_unlocked :
    (((settling bench .c order order).handle (.pumpNews 0 .unlocked)).ordersOf .c).done.map (fun c => (c.seq, c.slot, c.ending)) =
      [(7, 0, .disturbed), (8, 1, .disturbed), (9, 2, .done)] ∧
    ((settling bench .c order order).handle (.pumpNews 0 .unlocked)).latched .c .orderDone 2 = true := by decide +kernel
theorem test_witness_age (e : Entry) : ((bench.setOrders .b { queue := [e] }).ordersOf .b).queue = [e] ∧
    (∀ q, q ≠ .b → ((bench.setOrders .b { queue := [e] }).ordersOf q).queue = []) ∧ order.active = true ∧ order.granted = false ∧ order.mark = false ∧
    order.kind = .pumpStart := by
  refine ⟨rfl, fun q h => ?_, by decide⟩
  cases q <;> first | exact absurd rfl h | rfl
/-- Two ports' starts of one pump go STALE, and a WAITING order behind a granted one. -/
def aged : State :=
  ((pump { demand := { a := true, b := true } }).setOrders .a { queue := [{ order with mark := true }] }).setOrders .b
    { queue := [{ order with mark := true }, { order with seq := 8, slot := 1, kind := .pumpStart, target := .pump 1, granted := true },
      { order with seq := 9, slot := 2, active := false, target := .pump 1, mark := true }] }
theorem test_witness_aged : ∀ p, ((aged.ordersOf p).queue.map (·.seq)).Nodup ∧ ∀ e ∈ (aged.ordersOf p).queue, e.kind ≠ .settle ∧ e.settle = [] ∧
    (∃ x ∈ (aged.ordersOf p).queue, x.active = true ∧ x.target = e.target) ∧
    (e.active = true → ∀ x ∈ (aged.ordersOf p).queue,
      x.active = true ∨ (e.mark && (!e.active || (e.kind == .pumpStart && !e.granted))) = true → x.target = e.target → x = e) := by
  intro p; cases p <;> decide +kernel
theorem test_aged : ((after (.ageTimerExpiry []) aged).pumps[0].demand = {}) ∧ ((after (.ageTimerExpiry []) aged).ordersOf .a).queue = [] ∧
    ((after (.ageTimerExpiry []) aged).ordersOf .b).queue.map (·.seq) = [8] := by decide +kernel
/-- The order, and one that waits behind it on its target. -/
def pairOf (e w : Entry) : State := bench.setOrders .b { queue := [e, { w with slot := 1, seq := 8, active := false }] }
theorem test_witness_pair (e w : Entry) : ((pairOf e w).ordersOf .b).queue = [e, { w with slot := 1, seq := 8, active := false }] ∧
    ∀ q, q ≠ .b → ((pairOf e w).ordersOf q).queue = [] := by
  refine ⟨rfl, fun q h => ?_⟩
  cases q <;> first | exact absurd rfl h | rfl
theorem test_witness_pair_orders : order.active = true ∧ order.settle = [] ∧ order.seq ≠ 8 ∧ order.target = .pump 0 ∧ [7, 8].Nodup ∧
    (OrderKind.barrierClose).onBarrier = true ∧ (lockedPump { state := .locked, locked := true }).pumps[0].locked = true ∧
    (lockedBarrier { state := .locked, locked := true }).barriers[0].locked = true ∧ (feed { state := .shed }).feeds[0].state = .shed ∧
    (({ bench with cfg := Cfg.factory }).setOrders .b { queue := [{ order with kind := .pumpStop, fixedDone := true }] }).cfg.pumps[0].enable = false ∧
    bench.cfg.pumps[0].enable = true := by decide +kernel
/-- A marked order that waits goes STALE; one behind an order that RUNNING ends is activated, and so is the only one after an ABORT. -/
theorem test_order_behind :
    ((after (.ageTimerExpiry []) (pairOf { order with granted := true } { order with mark := true })).ordersOf .b).done.map (·.ending) = [.stale] ∧
    (((pairOf order { order with kind := .pumpStop }).handle (.pumpNews 0 .running)).ordersOf .b).done.map (·.ending) = [.done, .done] ∧
    ((after (.ageTimerExpiry []) (pairOf { order with mark := true } { order with mark := true })).ordersOf .b).queue.map (fun e => (e.seq, e.mark)) = [(8, false)] ∧
    ((((bench.setOrders .b { queue := [{ order with active := false }] }).handle (.activate .b (.pump 0))).ordersOf .b).queue.map (·.active)) = [true] := by
  decide +kernel
/-- A queue without SETTLEs is right too; a feed's ABORT finds it in any state, with its chain tested while the coil is held. -/
theorem test_witness_withdraw : classOf 2 = some .pump ∧ orderTarget .pump 0 = some (.pump 0) ∧ classOf 4 = some .feed ∧
    orderTarget .feed 0 = some (.feed 0) ∧ ((bench.ordersOf .b).queue.find? fun e => e.active && e.target == .pump 0) = none ∧
    (∀ e ∈ ((settling bench .b order order).ordersOf .b).queue.filter fun e => !e.active && e.target == .pump 0, e.kind ≠ .settle) := by decide +kernel
theorem test_witness_abort_feed (v : Feed) (k : OrderKind) (h : k ≠ .settle) :
    let e := { order with kind := k, target := .feed 0 }
    let s := settling (feed v) .b e e
    s.feeds[0] = v ∧ s.CoilRight ∧ s.CoilHeld ∧ (s.ordersOf .b).QueueRight ∧
      ((s.ordersOf .b).queue.find? fun x => x.active && x.target == .feed 0) = some e :=
  ⟨rfl, coil_right_empty rfl rfl rfl, .inr rfl, (test_witness_settling _ _ _ _ h h).1, rfl⟩
/-- The ABORT of a FEED_SHED that empties the set of a feed in SHED_WAIT, and one that leaves a demand in it. -/
theorem test_abort_feed_shed :
    let s := fun (d : ShedSet) => settling (feed { state := .shedWait, demand := d }) .b { order with kind := .feedShed, target := .feed 0 } order
    (after (.abort .b 1 4 0 []) (s { b := true })).feeds[0].state = .live ∧
    (after (.abort .b 1 4 0 []) (s { a := true, b := true })).feeds[0].state = .shedWait ∧
    ((after (.abort .b 1 4 0 []) (s { a := true, b := true })).coil.queue.map fun e => (e.feed, e.op)) = [(0, .shed)] := by decide +kernel
theorem test_witness_withdraw_refused : classOf 0 = some .sump ∧ classOf 1 = some .probe ∧ classOf 5 = some .rule ∧ 6 < (7 : Byte).toNat ∧
    orderTarget .pump 8 = none ∧ classOf 6 = some .port ∧ orderTarget .port 0 = some .port ∧
    (let q := ((settling bench .b order order).ordersOf .b).queue
     (∀ e ∈ q, (e.kind = .settle ↔ e.target = .port) ∧ (e.kind = .settle → e.active = true)) ∧ ∃ e ∈ q, e.kind = .settle) := by decide +kernel
theorem test_witness_collect : (bench.ordersOf .b).done = [] ∧
  ∃ c rest, ((bench.setOrders .b { done := [bench.recordOf order .done {}] }).ordersOf .b).done = c :: rest :=
  ⟨by decide +kernel, _, _, rfl⟩

/-! Ports and service -/

theorem test_witness_bodies : encodeRequest (.events .a 9) = some [0x03, 0x09, 0x00] := by decide
theorem test_witness_frame : ((line { bench.port .a with rx := .idle }).port .a).rx = .idle ∧ ((line { bench.port .a with rx := .idle }).port .a).checked = none ∧
    3 ≤ [0x03, 0x09, (0x00 : Byte)].length ∧ (List.replicate 48 (0x00 : Byte)).length ≤ 48 := by decide +kernel
theorem test_witness_receiver (p : PortState) : (line p).port .a = p ∧ (line p).powered = true := ⟨rfl, rfl⟩
theorem test_witness_receiver_bytes : (0x02 : Byte).toNat < 3 ∧ 3 ≤ (0x03 : Byte).toNat ∧ (0x30 : Byte).toNat ≤ 48 ∧ 48 < (0x31 : Byte).toNat := by decide
theorem test_witness_reply_sent : ((after (.events .c 1) bench).port .c).rx = .replying ∧ ((after (.events .c 1) bench).port .c).reply.isSome = true ∧
    (after (.events .c 1) bench).restartAtReply = false ∧ (after (.restart .c 1) bench).restartAtReply = true ∧
    ((after (.restart .c 1) bench).port .c).reply.isSome = true := by decide +kernel
theorem test_witness_break_demand : (pump { state := .running, minRunElapsed := true, demand := { b := true } }).pumps[0].demand.has .b = true ∧
    bench.pumps[0].demand.has .b = false ∧ (feed { state := .restoreWait, request := true }).feeds[0].deferral = none := by decide +kernel
theorem test_witness_break : (bench.port .a).rx ≠ .broken ∧ ((line { bench.port .a with rx := .broken }).port .a).rx = .broken := by decide +kernel
theorem test_witness_reads : (3 : Byte).toNat = (3 : Fin 4).val ∧ 4 ≤ (4 : Byte).toNat ∧ 6 < (7 : Byte).toNat ∧ (7 : Byte).toNat = (7 : Fin 8).val ∧
    8 ≤ (8 : Byte).toNat ∧ (5 : Byte).toNat = (5 : Fin 6).val ∧ 6 ≤ (6 : Byte).toNat ∧ (11 : Byte).toNat = (11 : Fin 12).val ∧ 12 ≤ (12 : Byte).toNat ∧
    (15 : Byte).toNat = (15 : Fin 16).val ∧ 16 ≤ (16 : Byte).toNat ∧ itemName 0xFF = none := by decide +kernel
theorem test_witness_config_set : ∃ name r, itemName 0x07 = some name ∧ name.readOnly = false ∧ itemRef name 0 = some r ∧ itemRef name 4 = none ∧
    bench.store.writing = none ∧ bench.quiet = true ∧ ¬bench.ItemInUse r (bench.cfg.setItem r 799) ∧ ¬(bench.cfg.setItem r 799).ItemDisorders r ∧
    ¬(bench.cfg.setItem r 799).ItemDoubles r ∧ (bench.cfg.setItem r 800).ItemDisorders r :=
  ⟨_, _, rfl, by decide +kernel, rfl, by decide +kernel, by decide +kernel, by decide +kernel, fun h => h, fun h => h (by decide +kernel), fun h => h,
    (by decide +kernel : ¬ _)⟩
/-- Items in use, and a rank that is taken. -/
theorem test_witness_items_in_use : (barrier { state := .closing }).ItemInUse (.barrier 0 .closedCount) benchCfg ∧
    (barrier { state := .homing }).ItemInUse (.barrier 0 .interval) benchCfg ∧ (feed { state := .shedding }).ItemInUse (.feed 0 .rank) benchCfg ∧
    (supply { count := 3 }).ItemInUse (.part .supplyLimit) (benchCfg.setItem (.part .supplyLimit) 2) ∧
    (benchCfg.setItem (.barrier 0 .reopenHeight) 6000).ItemDisorders (.barrier 0 .reopenHeight) ∧ ¬bench.ItemInUse (.feed 0 .rank) benchCfg ∧
    (benchCfg.setItem (.feed 0 .rank) 1).ItemDoubles (.feed 0 .rank) :=
  ⟨.inl rfl, .inr (.inr rfl), .inl rfl, (by decide +kernel : _ < _), (by decide +kernel : _ ≤ _), (by decide +kernel : ¬(_ ∨ _)), ⟨1, by decide +kernel⟩⟩
/-- Enables that change and that do not, a moved pump, a new closed count, and a feed's new chain. -/
theorem test_witness_items : (benchCfg.setItem (.sump 0 .enable) 0).sumps[0].enable = false ∧ (benchCfg.setItem (.sump 1 .enable) 1).sumps[1].enable = true ∧
    (benchCfg.setItem (.sump 0 .enable) 1).sumps[0].enable = true ∧ (benchCfg.setItem (.pump 0 .enable) 0).pumps[0].enable = false ∧
    (benchCfg.setItem (.pump 1 .enable) 1).pumps[1].enable = true ∧ (benchCfg.setItem (.pump 0 .sump) 2).pumps[0].sump = 2 ∧
    (benchCfg.setItem (.barrier 0 .closedCount) 41).barriers[0].closedCount = 41 ∧ benchCfg.barriers[0].closedCount = 40 ∧
    (benchCfg.setItem (.barrier 1 .enable) 1).barriers[1].enable = true ∧ (benchCfg.setItem (.feed 0 .chain) 1).feeds[0].chain = 1 ∧
    (benchCfg.setItem (.part .supplyLimit) 3).supplyLimit = 3 := by decide +kernel
theorem test_witness_lockout (r : Pump) : (pump r).locks.pumps[0] = false ∧ (lockedPump r).locks.pumps[0] = true ∧ (pump r).store.writing = none ∧
    (lockedPump r).store.writing = none ∧ (lockedPump r).contacts[overloadK 0].accepted = false ∧ (pump r).pumps[0] = r :=
  ⟨rfl, rfl, rfl, rfl, rfl, rfl⟩
theorem test_witness_lockout_barrier (r : Barrier) : (barrier r).locks.barriers[0] = false ∧ (lockedBarrier r).locks.barriers[0] = true ∧
    (barrier r).store.writing = none ∧ (lockedBarrier r).store.writing = none ∧ (lockedBarrier r).contacts[openLimitK 0].accepted = false ∧
    (lockedBarrier r).contacts[closedLimitK 0].accepted = false ∧ (made 16 (lockedBarrier r)).contacts[openLimitK 0].accepted = true ∧
    (made 8 (lockedPump {})).contacts[overloadK 0].accepted = true ∧ (made 22 (made 16 (lockedBarrier r))).contacts[openLimitK 0].accepted = true ∧
    (made 22 (made 16 (lockedBarrier r))).contacts[closedLimitK 0].accepted = true ∧ (barrier r).barriers[0] = r :=
  ⟨rfl, rfl, rfl, rfl, rfl, rfl, rfl, rfl, rfl, rfl, rfl⟩
theorem test_witness_clear_failure : (pump { state := .failed }).pumps[0].state = .failed ∧ (pump { state := .failed }).contacts[overloadK 0].accepted = false ∧
    (made 8 (pump { state := .failed })).contacts[overloadK 0].accepted = true ∧ bench.pumps[0].state ≠ .failed ∧
    (barrier { state := .fault }).barriers[0].state = .fault ∧ (barrier { state := .fault }).contacts[driveOverloadK 0].accepted = false ∧
    (made 34 (barrier { state := .fault })).contacts[driveOverloadK 0].accepted = true ∧ bench.barriers[0].state ≠ .fault ∧ bench.feeds[0].state ≠ .fault ∧
    (feed { state := .fault, demand := { hard := true } }).feeds[0].demand ≠ {} ∧
    (made 40 (feed { state := .fault })).feeds[0].state = .fault ∧ (made 40 (feed { state := .fault })).contacts[auxK 0].accepted = true ∧
    (made 40 (feed { state := .fault })).feeds[0].demand = {} := by decide +kernel
theorem test_witness_clear_failure_coil : (made 40 (feed { state := .fault })).CoilRight := coil_right_of (by decide +kernel) (by decide +kernel) (by decide +kernel)

/-- A store write under way. -/
def writing (held : Bool) : State := { bench with store := { bench.store with writing := some ⟨0, ⟨benchCfg, Locks.none⟩⟩, restartHeld := held } }
theorem test_witness_write_end : bench.store.writing = none ∧ (writing false).store.writing = some ⟨0, ⟨benchCfg, Locks.none⟩⟩ ∧
    (writing false).store.restartHeld = false ∧ (writing true).store.restartHeld = true ∧ (writing false).fcr.record = none ∧ faulted.fcr.record ≠ none :=
  ⟨rfl, rfl, rfl, rfl, rfl, by simp [faulted]⟩

end Sys2Proof.Tests
end

