-- ==== Sys2Proof/Proofs/Water.lean ====
section
/-! SUPPORT. The volume function (R24) and the arrival time (R28). One millimetre of level adds the area it stands on, the sump's up to the brim and the
floor's above it; from that the volume rises with the level. The arrival time has one equation for each row of R28's table. -/

namespace Sys2Proof.Machine

/-! ### The volume held at a level (R24) -/

theorem volume_of_le_brim {c : SumpCfg} {level : Nat} (h : level ≤ c.brim) : volume c level = level * c.area := if_pos h

theorem volume_of_brim_lt {c : SumpCfg} {level : Nat} (h : c.brim < level) :
    volume c level = c.brim * c.area + (level - c.brim) * c.floor := if_neg (Nat.not_le.mpr h)

/-- At the brim both rows of R24's table give the same volume, so the second row holds from the brim on. -/
theorem volume_of_brim_le {c : SumpCfg} {level : Nat} (h : c.brim ≤ level) :
    volume c level = c.brim * c.area + (level - c.brim) * c.floor := by
  obtain rfl | hlt := h.eq_or_lt
  · rw [volume_of_le_brim le_rfl, Nat.sub_self, Nat.zero_mul, Nat.add_zero]
  · exact volume_of_brim_lt hlt

theorem volume_succ (c : SumpCfg) (level : Nat) :
    volume c (level + 1) = volume c level + if level < c.brim then c.area else c.floor := by
  split
  next hpit => rw [volume_of_le_brim hpit, volume_of_le_brim hpit.le, Nat.succ_mul]
  next hroom =>
    have hbrim : c.brim ≤ level := Nat.not_lt.mp hroom
    rw [volume_of_brim_le (hbrim.trans level.le_succ), volume_of_brim_le hbrim, Nat.succ_sub hbrim, Nat.succ_mul, Nat.add_assoc]

theorem volume_monotone (c : SumpCfg) : Monotone (volume c) :=
  monotone_nat_of_le_succ fun level => volume_succ c level ▸ Nat.le_add_right _ _

theorem volume_strictMono {c : SumpCfg} (harea : 1 ≤ c.area) (hfloor : 1 ≤ c.floor) : StrictMono (volume c) :=
  strictMono_nat_of_lt_succ fun level => by
    rw [volume_succ]
    split <;> omega

/-- The bound is met by the lowest brim, with the widest sump and floor. -/
theorem volume_le_of_ranges {c : SumpCfg} {level : Nat} (harea : c.area ≤ 100) (hlow : 100 ≤ c.brim) (hhigh : c.brim ≤ 3000)
    (hfloor : c.floor ≤ 5000) (hlevel : level ≤ 6000) : volume c level ≤ 29510000 := by
  have htop : volume c level ≤ volume c 6000 := volume_monotone c hlevel
  have hsum : volume c 6000 = c.brim * c.area + (6000 - c.brim) * c.floor := volume_of_brim_le (hhigh.trans (by decide))
  have hpit : c.brim * c.area ≤ c.brim * 100 := Nat.mul_le_mul_left _ harea
  have hroom : (6000 - c.brim) * c.floor ≤ (6000 - c.brim) * 5000 := Nat.mul_le_mul_left _ hfloor
  omega

/-! ### The arrival time at a height (R28), row by row -/

theorem arrivalTime_without_level (c : SumpCfg) (valid : Bool) (netRise : Int) (height : Nat) :
    arrivalTime c none valid netRise height = 65535 := rfl

theorem arrivalTime_reached {l height : Nat} (h : height ≤ l) (c : SumpCfg) (valid : Bool) (netRise : Int) :
    arrivalTime c (some l) valid netRise height = 0 := if_pos h

theorem arrivalTime_unpredicted {l height : Nat} {valid : Bool} {netRise : Int} (hl : l < height)
    (hno : valid = false ∨ netRise ≤ 0) (c : SumpCfg) : arrivalTime c (some l) valid netRise height = 65535 := by
  have hcond : (!valid || decide (netRise ≤ 0)) = true := by simpa using hno
  simp only [arrivalTime, if_neg (Nat.not_le.mpr hl), if_pos hcond]

theorem arrivalTime_predicted {l height : Nat} {netRise : Int} (hl : l < height) (hrise : 0 < netRise) (c : SumpCfg) :
    arrivalTime c (some l) true netRise height = max 1 (min 65534 ((volume c height - volume c l) / netRise.toNat)) := by
  have hcond : ¬(!true || decide (netRise ≤ 0)) = true := by simpa using hrise
  simp only [arrivalTime, if_neg (Nat.not_le.mpr hl), if_neg hcond]

/-- The volume still to fill is not negative, so the quotient that R28 truncates is the model's quotient of naturals. -/
theorem fillTime_tdiv {c : SumpCfg} {l height : Nat} {netRise : Int} (hl : l ≤ height) (hrise : 0 ≤ netRise) :
    ((volume c height : Int) - volume c l).tdiv netRise = ((volume c height - volume c l) / netRise.toNat : Nat) := by
  have hvol : volume c l ≤ volume c height := volume_monotone c hl
  obtain ⟨n, rfl⟩ := Int.eq_ofNat_of_zero_le hrise
  rw [← Nat.cast_sub hvol, Int.toNat_natCast]
  exact (Int.ofNat_tdiv _ _).symm

/-- A height above the level is given no 0: either nothing is predicted, or the floor of 1 and the ceiling of 65534 hold. -/
theorem arrivalTime_pos_and_le {l height : Nat} (hl : l < height) (c : SumpCfg) (valid : Bool) (netRise : Int) :
    0 < arrivalTime c (some l) valid netRise height ∧ arrivalTime c (some l) valid netRise height ≤ 65535 := by
  by_cases hno : valid = false ∨ netRise ≤ 0
  · rw [arrivalTime_unpredicted hl hno]
    decide
  · obtain ⟨hvalid, hrise⟩ : valid = true ∧ 0 < netRise := by simpa using hno
    rw [hvalid, arrivalTime_predicted hl hrise]
    omega

theorem arrivalTime_le (c : SumpCfg) (level : Option Nat) (valid : Bool) (netRise : Int) (height : Nat) :
    arrivalTime c level valid netRise height ≤ 65535 := by
  cases level with
  | none => exact (arrivalTime_without_level c valid netRise height).le
  | some l =>
    obtain hl | hl := Nat.lt_or_ge l height
    · exact (arrivalTime_pos_and_le hl c valid netRise).2
    · exact arrivalTime_reached hl c valid netRise ▸ Nat.zero_le _

theorem arrivalTime_eq_zero_iff (c : SumpCfg) (level : Option Nat) (valid : Bool) (netRise : Int) (height : Nat) :
    arrivalTime c level valid netRise height = 0 ↔ ∃ l, level = some l ∧ height ≤ l := by
  cases level with
  | none => simp [arrivalTime_without_level]
  | some l =>
    obtain hl | hl := Nat.lt_or_ge l height
    · have hpos := (arrivalTime_pos_and_le hl c valid netRise).1
      simp [hpos.ne', hl]
    · simp [arrivalTime_reached hl, hl]

/-! ### The statements -/

/-- Settles O20: the two rows of R24, and the rise millimetre by millimetre. -/
theorem volumeOfTwoPrisms : Obligations.VolumeOfTwoPrisms := fun _ _ =>
  ⟨volume_of_le_brim, volume_of_brim_lt, fun harea hfloor _ hlt => volume_strictMono harea hfloor hlt, volume_le_of_ranges⟩

/-- Settles O21: the rows of R28 in their order, then the range and the zero case from them. -/
theorem arrivalTimeByTheFirstCondition : Obligations.ArrivalTimeByTheFirstCondition := by
  intro c level valid netRise height
  refine ⟨?noLevel, ?reached, ?unpredicted, ?predicted, arrivalTime_le .., arrivalTime_eq_zero_iff ..⟩
  case noLevel =>
    rintro rfl
    exact arrivalTime_without_level ..
  case reached =>
    rintro l rfl hl
    exact arrivalTime_reached hl ..
  case unpredicted =>
    rintro l rfl hl hno
    exact arrivalTime_unpredicted hl hno c
  case predicted =>
    rintro l rfl hl rfl hrise
    rw [fillTime_tdiv hl.le hrise.le, arrivalTime_predicted hl hrise]
    dsimp only
    split_ifs <;> omega

end Sys2Proof.Machine
end

