-- ==== Sys2Proof/Proofs/TripRules.lean ====
section
/-! SUPPORT. Trip rules (section 3.6): R48's reading of a picture, each row of R49's table as an equation of `Rule.next`, and the three outcomes of
putting a rule to a new record, by whether it enters FIRED, leaves it, or does neither. -/

namespace Sys2Proof.Machine

theorem CondSet.holds_iff (c : CondSet) (threshold q : Int) :
    c.holds threshold q = true ↔
      (c.below = true ∧ q < threshold) ∨ (c.at_ = true ∧ q = threshold) ∨ (c.above = true ∧ threshold < q) := by
  simp only [holds, Bool.or_eq_true, Bool.and_eq_true, decide_eq_true_eq, or_assoc]

/-! ### The rows of R49's table -/

namespace Rule

variable {c : RuleCfg} {r : Rule}

theorem next_idle_true_of_hold_one (h : r.state = .idle) (hc : c.hold = 1) : r.next c true = { state := .fired } := by
  simp only [next, h, if_pos hc]

theorem next_idle_true_of_hold_ne_one (h : r.state = .idle) (hc : c.hold ≠ 1) :
    r.next c true = { state := .counting, trueCount := 1 } := by
  simp only [next, h, if_neg hc]

theorem next_idle_false (h : r.state = .idle) : r.next c false = r := by simp only [next, h]

theorem next_counting_true_of_hold_le (h : r.state = .counting) (hc : c.hold ≤ r.trueCount + 1) :
    r.next c true = { state := .fired } := by
  simp only [next, h, if_pos hc]

theorem next_counting_true_of_lt_hold (h : r.state = .counting) (hc : r.trueCount + 1 < c.hold) :
    r.next c true = { r with trueCount := r.trueCount + 1 } := by
  simp only [next, h, if_neg (Nat.not_le.mpr hc)]

theorem next_counting_false (h : r.state = .counting) : r.next c false = { r with state := .idle, trueCount := 0 } := by
  simp only [next, h]

theorem next_fired_true (h : r.state = .fired) : r.next c true = { r with falseCount := 0 } := by simp only [next, h]

theorem next_fired_false_of_release_le (h : r.state = .fired) (hc : c.release ≤ r.falseCount + 1) : r.next c false = {} := by
  simp only [next, h, if_pos hc]

theorem next_fired_false_of_lt_release (h : r.state = .fired) (hc : r.falseCount + 1 < c.release) :
    r.next c false = { r with falseCount := r.falseCount + 1 } := by
  simp only [next, h, if_neg (Nat.not_le.mpr hc)]

end Rule

namespace State

variable {s : State} {t : Fin 16} {i : Fin 4}

/-- What raising one event leaves on the ports (R148); the latches have 16 sources. -/
theorem raised_raise (s : State) (k : EventKind) {src : Nat} (hsrc : src < 16) : s.Raised (s.raise k src) [(k, src)] := by
  refine ⟨fun p j n => ?latches, fun p => ?ports⟩
  case latches =>
    have hcode : decide (k = j ∧ src = n ∧ n < 16) = [(k, src)].contains (j, n) := by
      rw [Bool.eq_iff_iff]
      simp only [decide_eq_true_eq, List.contains_iff_mem, List.mem_singleton, Prod.mk.injEq]
      constructor
      · rintro ⟨rfl, rfl, -⟩
        exact ⟨rfl, rfl⟩
      · rintro ⟨rfl, rfl⟩
        exact ⟨rfl, rfl, hsrc⟩
    rw [latched_raise, hcode]
  case ports => rw [port_raise]; rfl

/-! ### A rule put to a new record -/

/-- A rule enters FIRED. -/
theorem moveRule_of_fires {r : Rule} (hwas : s.rules[t].state ≠ .fired) (hr : r.state = .fired) :
    s.moveRule t r = (s.setRule t r).raise .ruleFired t := by
  simp [moveRule, hwas, hr, -Fin.getElem_fin]

/-- A rule leaves FIRED. -/
theorem moveRule_of_releases {r : Rule} (hwas : s.rules[t].state = .fired) (hr : r.state ≠ .fired) :
    s.moveRule t r = (s.setRule t r).raise .ruleReleased t := by
  simp [moveRule, hwas, hr, -Fin.getElem_fin]

/-- A rule neither enters FIRED nor leaves it. -/
theorem moveRule_of_unreported {r : Rule} (h : s.rules[t].state = .fired ↔ r.state = .fired) :
    s.moveRule t r = s.setRule t r := by
  by_cases hr : r.state = .fired
  · simp [moveRule, hr, h.mpr hr, -Fin.getElem_fin]
  · simp [moveRule, hr, mt h.mp hr, -Fin.getElem_fin]

/-- Nothing but the rule and the latches changes. -/
theorem moveRule_frame (s : State) (t : Fin 16) (r : Rule) :
    s.moveRule t r = { s with rules := s.rules.set t r, ports := (s.moveRule t r).ports } := by
  unfold moveRule
  dsimp only
  split_ifs <;> rfl

theorem moveRule_rules_self (s : State) (t : Fin 16) (r : Rule) : (s.moveRule t r).rules[t] = r := by
  rw [moveRule_frame]
  exact get_set_self s.rules t r

theorem moveRule_fires {r : Rule} (hwas : s.rules[t].state ≠ .fired) (hr : r.state = .fired) :
    (s.moveRule t r).rules[t] = r ∧ s.Raised (s.moveRule t r) [(.ruleFired, t.val)] := by
  refine ⟨moveRule_rules_self .., ?_⟩
  rw [moveRule_of_fires hwas hr]
  exact raised_raise (s.setRule t r) .ruleFired t.isLt

theorem moveRule_releases {r : Rule} (hwas : s.rules[t].state = .fired) (hr : r.state ≠ .fired) :
    (s.moveRule t r).rules[t] = r ∧ s.Raised (s.moveRule t r) [(.ruleReleased, t.val)] := by
  refine ⟨moveRule_rules_self .., ?_⟩
  rw [moveRule_of_releases hwas hr]
  exact raised_raise (s.setRule t r) .ruleReleased t.isLt

theorem moveRule_unreported {r : Rule} (h : s.rules[t].state = .fired ↔ r.state = .fired) :
    (s.moveRule t r).rules[t] = r ∧ (s.moveRule t r).ports = s.ports := by
  refine ⟨moveRule_rules_self .., ?_⟩
  rw [moveRule_of_unreported h, setRule_ports]

/-! ### What a picture gives a rule to read (R48) -/

theorem quantityOf_without_level (hlevel : s.sumps[i].picture.level = none) : s.quantityOf t i = none := by
  simp only [quantityOf, pictureOf, hlevel]

theorem quantityOf_invalid_flow (hq : s.cfg.rules[t].quantity ≠ .level) (hvalid : s.sumps[i].picture.valid = false) :
    s.quantityOf t i = none := by
  cases hlevel : s.sumps[i].picture.level with
  | none => exact quantityOf_without_level hlevel
  | some l =>
    cases hqty : s.cfg.rules[t].quantity with
    | level => exact absurd hqty hq
    | inflow | netRise => simp only [quantityOf, pictureOf, hlevel, hqty, hvalid, Bool.false_eq_true, if_false]

theorem quantityOf_level {l : Nat} (hlevel : s.sumps[i].picture.level = some l) (hq : s.cfg.rules[t].quantity = .level) :
    s.quantityOf t i = some (l : Int) := by
  simp only [quantityOf, pictureOf, hq, hlevel]

theorem quantityOf_inflow {l : Nat} (hlevel : s.sumps[i].picture.level = some l) (hvalid : s.sumps[i].picture.valid = true)
    (hq : s.cfg.rules[t].quantity = .inflow) : s.quantityOf t i = some s.sumps[i].picture.inflow := by
  simp only [quantityOf, pictureOf, hq, hlevel, hvalid, if_true]

theorem quantityOf_netRise {l : Nat} (hlevel : s.sumps[i].picture.level = some l) (hvalid : s.sumps[i].picture.valid = true)
    (hq : s.cfg.rules[t].quantity = .netRise) : s.quantityOf t i = some s.sumps[i].picture.netRise := by
  simp only [quantityOf, pictureOf, hq, hlevel, hvalid, if_true]

/-! ### One rule at a picture -/

theorem stepRule_of_foreign (h : s.cfg.rules[t].enable = false ∨ s.cfg.rules[t].sump ≠ i) : s.stepRule t i = s := by
  have hout : ¬(s.cfg.rules[t].enable && s.cfg.rules[t].sump == i) = true := by
    obtain hoff | hother := h
    · simp [hoff, -Fin.getElem_fin]
    · simp [hother, -Fin.getElem_fin]
  exact if_neg hout

theorem stepRule_of_unread (h : s.quantityOf t i = none) : s.stepRule t i = s := by
  simp only [stepRule, h, ite_self]

theorem stepRule_of_read {q : Int} (henable : s.cfg.rules[t].enable = true) (hsump : s.cfg.rules[t].sump = i)
    (h : s.quantityOf t i = some q) :
    s.stepRule t i = s.moveRule t (s.rules[t].next s.cfg.rules[t] (s.cfg.rules[t].cond.holds s.cfg.rules[t].threshold q)) := by
  have hown : (s.cfg.rules[t].enable && s.cfg.rules[t].sump == i) = true := by simp [henable, hsump, -Fin.getElem_fin]
  simp only [stepRule, h, if_pos hown]

end State

/-! ### The statement -/

/-- Settles O22: R48 says what the rule reads, the row of R49's table what its record becomes, and that row's two states whether the move is
reported. -/
theorem tripRuleMovesByItsTable : Obligations.TripRuleMovesByItsTable := by
  intro s r i c old pic reads
  refine ⟨State.stepRule_of_foreign, ?unread, ?read⟩
  case unread =>
    rintro (hlevel | ⟨hqty, hvalid⟩)
    · exact State.stepRule_of_unread (State.quantityOf_without_level hlevel)
    · exact State.stepRule_of_unread (State.quantityOf_invalid_flow hqty hvalid)
  case read =>
    intro q henable hsump hreads holds
    have hq : s.quantityOf r i = some q := by
      obtain ⟨l, hlevel, ⟨hqty, rfl⟩ | ⟨hqty, hvalid, rfl⟩ | ⟨hqty, hvalid, rfl⟩⟩ := hreads
      · exact State.quantityOf_level hlevel hqty
      · exact State.quantityOf_inflow hlevel hvalid hqty
      · exact State.quantityOf_netRise hlevel hvalid hqty
    have hstep := State.stepRule_of_read henable hsump hq
    have hmet : c.cond.holds c.threshold q = true ↔ holds := CondSet.holds_iff ..
    have htrue (hh : holds) : s.stepRule r i = s.moveRule r (old.next c true) := by rw [hstep, hmet.mpr hh]
    have hfalse (hh : ¬holds) : s.stepRule r i = s.moveRule r (old.next c false) := by
      rw [hstep, Bool.eq_false_iff.mpr (mt hmet.mp hh)]
    refine ⟨_, rfl, ?frame, ?idleFires, ?idleCounts, ?idleStays, ?countingFires, ?countingCounts, ?countingIdles, ?firedStays,
      ?firedReleases, ?firedCounts⟩
    case frame =>
      rw [hstep, State.moveRule_rules_self]
      exact State.moveRule_frame ..
    case idleFires =>
      intro hidle hh hhold
      rw [htrue hh, Rule.next_idle_true_of_hold_one hidle hhold]
      exact State.moveRule_fires (ne_of_eq_of_ne hidle nofun) rfl
    case idleCounts =>
      intro hidle hh hhold
      rw [htrue hh, Rule.next_idle_true_of_hold_ne_one hidle hhold]
      exact State.moveRule_unreported (iff_of_false (ne_of_eq_of_ne hidle nofun) nofun)
    case idleStays =>
      intro hidle hh
      rw [hfalse hh, Rule.next_idle_false hidle]
      exact State.moveRule_unreported Iff.rfl
    case countingFires =>
      intro hcounting hh hhold
      rw [htrue hh, Rule.next_counting_true_of_hold_le hcounting hhold]
      exact State.moveRule_fires (ne_of_eq_of_ne hcounting nofun) rfl
    case countingCounts =>
      intro hcounting hh hhold
      rw [htrue hh, Rule.next_counting_true_of_lt_hold hcounting hhold]
      exact State.moveRule_unreported Iff.rfl
    case countingIdles =>
      intro hcounting hh
      rw [hfalse hh, Rule.next_counting_false hcounting]
      exact State.moveRule_unreported (iff_of_false (ne_of_eq_of_ne hcounting nofun) nofun)
    case firedStays =>
      intro hfired hh
      rw [htrue hh, Rule.next_fired_true hfired]
      exact State.moveRule_unreported Iff.rfl
    case firedReleases =>
      intro hfired hh hrelease
      rw [hfalse hh, Rule.next_fired_false_of_release_le hfired hrelease]
      exact State.moveRule_releases hfired nofun
    case firedCounts =>
      intro hfired hh hrelease
      rw [hfalse hh, Rule.next_fired_false_of_lt_release hfired hrelease]
      exact State.moveRule_unreported Iff.rfl

end Sys2Proof.Machine
end

/-! SUPPORT. COLLECT (R138). A request that gives rise to no notice comes to rest as the attention lines and its reply, and these two write the port
controllers alone and keep every latch; COLLECT's own effect takes the oldest record off one port's list. -/

namespace Sys2Proof.Machine

namespace State

/-! ### The attention lines and the reply -/

theorem updateAttention_frame (s : State) : s.updateAttention = { s with ports := s.updateAttention.ports } := rfl

theorem latched_updateAttention (s : State) (q : Port) (k : EventKind) (i : Nat) : s.updateAttention.latched q k i = s.latched q k i := by
  rw [latched, port_updateAttention]
  rfl

section Reply

variable (s : State) (p : Port) (code tag : Byte) (ans : Answer)

theorem reply_frame : s.reply p code tag ans = { s with ports := (s.reply p code tag ans).ports } := rfl

theorem ordersOf_reply (q : Port) : (s.reply p code tag ans).ordersOf q = s.ordersOf q := ordersOf_setPort ..

theorem port_reply_attention : ((s.reply p code tag ans).port p).attention = (s.port p).attention := by
  rw [reply, port_setPort_self]

theorem port_reply_reply : ((s.reply p code tag ans).port p).reply = some (s.replyFor p code tag ans) := by
  rw [reply, port_setPort_self]

/-- A reply is no event: the port that sends it keeps its latches, and so does every other. -/
theorem latched_reply (q : Port) (k : EventKind) (i : Nat) : (s.reply p code tag ans).latched q k i = s.latched q k i := by
  rw [latched, reply, port_setPort]
  split
  case isTrue same => subst same; rfl
  case isFalse => rfl

end Reply

end State

/-! ### A request that gives rise to no notice -/

theorem request_of_no_work {s : State} (h : s.powered = true) (p : Port) (code tag : Byte) (picks : Picks) {rule : State → State × Answer}
    {t : State} {ans : Answer} (hrule : rule s.begun = (t, ans)) (hwork : t.work = []) :
    request s p code tag picks rule = .next (t.updateAttention.reply p code tag ans) := by
  rw [request, if_pos h]
  dsimp only
  rw [hrule, State.settled_of_no_work t picks hwork]

/-! ### COLLECT's own effect -/

namespace State

variable {s : State} {p : Port}

theorem collectRule_of_nil (h : (s.ordersOf p).done = []) : s.collectRule p = (s, refusal .empty) := by
  simp only [collectRule, h, List.head?_nil]

theorem collectRule_of_cons {c : Completion} {rest : List Completion} (h : (s.ordersOf p).done = c :: rest) :
    s.collectRule p = (s.dropDone p, accepted c.record) := by
  simp only [collectRule, h, List.head?_cons]

theorem dropDone_frame (s : State) (p : Port) : s.dropDone p = { s with orders := (s.dropDone p).orders } := rfl

theorem ordersOf_dropDone_of_cons {c : Completion} {rest : List Completion} (h : (s.ordersOf p).done = c :: rest) :
    (s.dropDone p).ordersOf p = { s.ordersOf p with done := rest } := by
  rw [dropDone, ordersOf_setOrders_self, h, List.tail_cons]

theorem ordersOf_dropDone_ne {q : Port} (h : q ≠ p) : (s.dropDone p).ordersOf q = s.ordersOf q :=
  ordersOf_setOrders_ne s h.symm _

theorem port_dropDone (q : Port) : (s.dropDone p).port q = s.port q := port_setOrders ..

end State

/-! ### The statement -/

theorem exec_collect (p : Port) (tag : Byte) (s : State) :
    exec (.collect p tag) s = request s p 0x13 tag [] fun t => t.collectRule p := rfl

theorem exec_collect_of_nil {s : State} (hpow : s.powered = true) {p : Port} (tag : Byte) (h : (s.ordersOf p).done = []) :
    exec (.collect p tag) s = .next (s.begun.updateAttention.reply p 0x13 tag (refusal .empty)) := by
  rw [exec_collect]
  exact request_of_no_work hpow p 0x13 tag [] (State.collectRule_of_nil h) s.begun_work

theorem exec_collect_of_cons {s : State} (hpow : s.powered = true) {p : Port} (tag : Byte) {c : Completion} {rest : List Completion}
    (h : (s.ordersOf p).done = c :: rest) :
    exec (.collect p tag) s = .next ((s.begun.dropDone p).updateAttention.reply p 0x13 tag (accepted c.record)) := by
  rw [exec_collect]
  exact request_of_no_work hpow p 0x13 tag [] (State.collectRule_of_cons h) s.begun_work

/-- Settles O49: the empty list is refused, and with an oldest record the reply and the attention line are read after it has been taken off. -/
theorem collectTakesTheOldestRecord : Obligations.CollectTakesTheOldestRecord := by
  intro s p tag hpow
  refine ⟨exec_collect_of_nil hpow tag, fun c rest hdone => ?_⟩
  have horders : (s.begun.dropDone p).ordersOf p = { s.ordersOf p with done := rest } := State.ordersOf_dropDone_of_cons hdone
  refine ⟨_, exec_collect_of_cons hpow tag hdone, ?frame, ?list, ?others, ?latches, ?line, _, State.port_reply_reply .., rfl, rfl, ?free⟩
  case frame => rw [State.reply_frame, State.updateAttention_frame, State.dropDone_frame]; rfl
  case list => rw [State.ordersOf_reply, State.ordersOf_updateAttention, horders]
  case others =>
    intro q hq
    rw [State.ordersOf_reply, State.ordersOf_updateAttention, State.ordersOf_dropDone_ne hq]
    rfl
  case latches =>
    intro q k i
    rw [State.latched_reply, State.latched_updateAttention, State.latched, State.port_dropDone]
    rfl
  case line =>
    rw [State.port_reply_attention, State.port_updateAttention]
    dsimp only
    rw [State.attentionOf, horders, State.port_dropDone]
    rfl
  case free =>
    rw [State.replyFor, State.ordersOf_updateAttention, horders]
    rfl

end Sys2Proof.Machine
